-- ==== Sys2Proof/Word.lean ====
section
/-! DEFINITION. The words of TAPECORE: what the spec treats as bits (00_scope.md R9, 20_memory.md R50). There are
no bytes anywhere in this hardware: a port, a register and a memory element are moved in whole words. -/
namespace Sys2Proof

/-- A port word: 32 bits (00_scope.md R9). Also the pattern of a binary32 value (20_memory.md R51: the sign in bit
31, the exponent in bits 30:23, the fraction in bits 22:0). -/
abbrev Word := BitVec 32

/-- The pattern of an IEEE-754 binary64 value, the format of every internal datapath value (00_scope.md R12; the
layout is 10_state.md R27: sign 63, exponent 62:52, fraction 51:0). -/
abbrev F64 := BitVec 64

/-- The transaction word `T` of 30_encoding.md R71: port 49, rw 48, addr 47:32, data 31:0. -/
abbrev TWord := BitVec 50

/-- A transaction as it waits at one port: bits 48:0 of its transaction word. The port bit is the queue's, because
the two ports are physically separate (30_encoding.md R71). -/
abbrev Access := BitVec 49

/-- A memory of `w`-bit elements: (element index, value) pairs. Its canonical form is `Machine.Memory.wf`. -/
abbrev Memory (w : Nat) := List (Nat × BitVec w)

end Sys2Proof
end

