-- ==== Sys2Proof/Config.lean ====
section
/-! DEFINITION. The configuration of TAPECORE: every constant of 00_scope.md R5 to R7 under a name of its own, and
the values the spec leaves open, as opaque constants with no body (nothing can be proved of which value they are).
Decimal literals are the binary64 (or, where the rule says so, binary32) values nearest the decimal (R5); the
patterns are checked against their decimals in Tests/Slice0.lean. -/
namespace Sys2Proof.Config

/-! ### Literals the document fixes (00_scope.md R5) -/

/-- `T_WOW` = 0.050 s, the time constant of WowDepth. -/
def tWow : F64 := 0x3FA999999999999A#64
/-- `T_FILT` = 0.020 s, the time constant of the four filter parameters. -/
def tFilt : F64 := 0x3F947AE147AE147B#64
/-- `T_DRIVE` = 0.030 s. -/
def tDrive : F64 := 0x3F9EB851EB851EB8#64
/-- `T_TONE` = 0.020 s. -/
def tTone : F64 := 0x3F947AE147AE147B#64
/-- `Q_BUTTERWORTH` = 0.707 as a binary64, the Q of both shelves. -/
def qButterworth : F64 := 0x3FE69FBE76C8B439#64
/-- `DRIVE_SPAN` = 9.0. -/
def driveSpan : F64 := 0x4022000000000000#64
/-- `SAT_EPS` = 1e-3. -/
def satEps : F64 := 0x3F50624DD2F1A9FC#64
/-- `FLUSH_THRESHOLD` = 1e-15. -/
def flushThreshold : F64 := 0x3CD203AF9EE75616#64
/-- `TONE_DB_SPAN` = 6.0. -/
def toneDbSpan : F64 := 0x4018000000000000#64
/-- `LOW_SHELF_HZ` = 250.0. -/
def lowShelfHz : F64 := 0x406F400000000000#64
/-- `HIGH_SHELF_HZ` = 5000.0. -/
def highShelfHz : F64 := 0x40B3880000000000#64
/-- `LFO_HZ` = 0.5. -/
def lfoHz : F64 := 0x3FE0000000000000#64
/-- `BASE_DELAY_MS` = 5.0. -/
def baseDelayMs : F64 := 0x4014000000000000#64
/-- `MAX_MOD_MS` = 45.0. -/
def maxModMs : F64 := 0x4046800000000000#64
/-- `BUF_CAP_MS` = 50.0. -/
def bufCapMs : F64 := 0x4049000000000000#64
/-- `FS_MAX` = 192000.0 Hz. -/
def fsMax : F64 := 0x4107700000000000#64
/-- `NCH_MAX` = 2. -/
def nchMax : Nat := 2

/-! ### Values the spec chose (00_scope.md R7) -/

/-- `BLK_MAX` = 8192 frames, the depth of each block buffer. -/
def blkMax : Nat := 8192
/-- `DL_MAX` = 9601 elements, the depth of each delay memory. -/
def dlMax : Nat := 9601
/-- `FS_MIN` = 1.0 Hz. -/
def fsMin : F64 := 0x3FF0000000000000#64
/-- `F_NYQ_FRAC` = 0.49. -/
def fNyqFrac : F64 := 0x3FDF5C28F5C28F5C#64
/-- `F_MIN_HZ` = 1.0 Hz. -/
def fMinHz : F64 := 0x3FF0000000000000#64
/-- `SAT_FC_HI` = 20000.0 Hz. -/
def satFcHi : F64 := 0x40D3880000000000#64
/-- `SAT_FC_LO` = 5000.0 Hz. -/
def satFcLo : F64 := 0x40B3880000000000#64
/-- `D_MIN_SAMPLES` = 1.0. -/
def dMinSamples : F64 := 0x3FF0000000000000#64
/-- `BYPASS_THRESHOLD` = 0.5, a binary32 (46_host_commands.md R205). -/
def bypassThreshold : Word := 0x3F000000#32
/-- `LFO_PHASE0` = +0.0 rad. -/
def lfoPhase0 : F64 := 0x0000000000000000#64

/-! ### The parameters (00_scope.md R6): bounds and defaults in binary32, indexed by parameter id -/

/-- `LO[id]`. Entry 7 (Bypass) is the set's lower member; SETCLAMP does not use it. -/
def lo : Vector Word 8 :=
  #v[0x00000000#32, 0x41A00000#32, 0x3DCCCCCD#32, 0x459C4000#32, 0x3DCCCCCD#32, 0x00000000#32, 0xBF800000#32,
    0x00000000#32]
/-- `HI[id]`. -/
def hi : Vector Word 8 :=
  #v[0x3F800000#32, 0x43480000#32, 0x40000000#32, 0x469C4000#32, 0x40000000#32, 0x3F800000#32, 0x3F800000#32,
    0x3F800000#32]
/-- `DEFAULT[id]`, the holders after hardware reset. -/
def default : Vector Word 8 :=
  #v[0x00000000#32, 0x41A00000#32, 0x3F34FDF4#32, 0x469C4000#32, 0x3F34FDF4#32, 0x00000000#32, 0x00000000#32,
    0x00000000#32]
/-- `T[p]`, the smoothers' time constants (40_smoother.md R90). -/
def timeConstant : Vector F64 7 := #v[tWow, tFilt, tFilt, tFilt, tFilt, tDrive, tTone]

/-! ### Binary64 constants of the formulas -/

/-- `PI` (00_scope.md R13). -/
def pi : F64 := 0x400921FB54442D18#64
/-- `TWO_PI` (00_scope.md R13). -/
def twoPi : F64 := 0x401921FB54442D18#64
/-- `0.1`, the lower bound of Q where it is consumed (41_resonant_filter.md R103 line 4, a binary64 bound). -/
def qMin : F64 := 0x3FB999999999999A#64
/-- `2.0`, the upper bound of Q (R103 line 4). -/
def qMax : F64 := 0x4000000000000000#64

/-! ### What the spec leaves open -/

/-- The five functions of the numerics record `NUM` (00_scope.md R14). -/
inductive NumFn | exp | sin | cos | tanh | pow10
deriving DecidableEq, Repr

/-- The numerics record `NUM` (00_scope.md R14, 93_implementation_defined.md U1): total functions that depend on
their operand alone. Every operation that needs it takes it as an argument; `Machine.hardwareNum` is this
hardware's, which promises (a) to (e) of R14 and nothing more. -/
structure Numerics where
  exp : F64 → F64
  sin : F64 → F64
  cos : F64 → F64
  tanh : F64 → F64
  pow10 : F64 → F64
deriving Inhabited

/-- FREE VALUE (log 12). For the monotone functions of `NUM` (exp, tanh, pow10): among the operands whose exact
result lies strictly between the binary64 value `below` and the next one, those of order key under
`numSplit f below` give `below` and the others the next one. Every monotone function that keeps R14(a) has this
form. -/
opaque numSplit (f : NumFn) (below : F64) : Int

/-- FREE VALUE (log 12). For `sin` and `cos`, of which R14 promises no monotony: whether the result for the
magnitude `x` is the larger or the smaller in magnitude of the two bracketing values. -/
opaque numUp (f : NumFn) (x : F64) : Bool

/-- FREE VALUE (log 14). The sign and the payload of a NaN that operation number `op` delivers: IEEE-754 and
60_exceptions.md R241 fix that it is a NaN and not which one. -/
opaque nanBits (op : Nat) (x y : F64) : BitVec 64

/-- FREE VALUE (log 16). `floor` and the ceiling of a NaN or an infinity: 00_scope.md R12 gives them for a finite
operand only. -/
opaque integerOf (x : F64) : Int

/-- FREE VALUE (log 9, log 10). What the registers that 10_state.md R42 says "hold no value" physically contain
after their `n`-th loss. -/
opaque noValue {α : Type} [Inhabited α] (n : Nat) : α

end Sys2Proof.Config
end

