-- ==== Sys2Proof/Syntax.lean ====
section
/-! DEFINITION. The operations of TAPECORE: one constructor for each of the 57 rows of spec/opcode_table.json
(30_encoding.md R79, R87): the 27 host operations and the illegal command, the three sequencer steps, the 26
internal datapath operations. -/
namespace Sys2Proof

/-- A channel (10_state.md R41): two banks, never switched. -/
inductive Chan | c0 | c1
deriving DecidableEq, Repr

/-- The four biquad instances (10_state.md R33): low-cut, low shelf, high shelf, high-cut. -/
inductive FilterId | lcf | lsf | hsf | hcf
deriving DecidableEq, Repr

/-- A raw coefficient set, before normalisation by `a0` (41_resonant_filter.md R104). -/
structure RawSet where
  b0 : F64
  b1 : F64
  b2 : F64
  a0 : F64
  a1 : F64
  a2 : F64
deriving DecidableEq, Repr, Inhabited

/-- A normalised coefficient set `(b0, b1, b2, a1, a2)` (41_resonant_filter.md R106): also the five coefficient
registers of a biquad (10_state.md R33). -/
structure Coefs where
  b0 : F64
  b1 : F64
  b2 : F64
  a1 : F64
  a2 : F64
deriving DecidableEq, Repr, Inhabited

/-- The operations. -/
inductive Instr where
  /-- CMD.PREPARE (46_host_commands.md R196) -/
  | cmdPrepare
  /-- CMD.PROCESS (R199) -/
  | cmdProcess
  /-- CMD.RELEASE (R202) -/
  | cmdRelease
  /-- WR.FS_LO (R191) -/
  | wrFsLo (data : Word)
  /-- WR.FS_HI (R192) -/
  | wrFsHi (data : Word)
  /-- WR.MAXBLK (R193) -/
  | wrMaxBlk (data : Word)
  /-- WR.NCH (R194) -/
  | wrNch (data : Word)
  /-- WR.NUMSAMP (R195) -/
  | wrNumSamp (data : Word)
  /-- RD.STATUS (R203) -/
  | rdStatus
  /-- RD.FS_LO (R215) -/
  | rdFsLo
  /-- RD.FS_HI (R216) -/
  | rdFsHi
  /-- RD.MAXBLK (R217) -/
  | rdMaxBlk
  /-- RD.NCH (R218) -/
  | rdNch
  /-- RD.NUMSAMP (R219) -/
  | rdNumSamp
  /-- WR.BLK0 (R220): frame index and sample word -/
  | wrBlk0 (idx : BitVec 13) (data : Word)
  /-- WR.BLK1 (R221) -/
  | wrBlk1 (idx : BitVec 13) (data : Word)
  /-- RD.BLK0 (R222) -/
  | rdBlk0 (idx : BitVec 13)
  /-- RD.BLK1 (R223) -/
  | rdBlk1 (idx : BitVec 13)
  /-- SETPARAM.WOWDEPTH (R206), a binary32 pattern -/
  | setWowDepth (data : Word)
  /-- SETPARAM.LOWCUTFREQ (R207) -/
  | setLowCutFreq (data : Word)
  /-- SETPARAM.LOWCUTQ (R208) -/
  | setLowCutQ (data : Word)
  /-- SETPARAM.HIGHCUTFREQ (R209) -/
  | setHighCutFreq (data : Word)
  /-- SETPARAM.HIGHCUTQ (R210) -/
  | setHighCutQ (data : Word)
  /-- SETPARAM.DRIVE (R211) -/
  | setDrive (data : Word)
  /-- SETPARAM.TONE (R212) -/
  | setTone (data : Word)
  /-- SETPARAM.BYPASS (R213) -/
  | setBypass (data : Word)
  /-- GETPARAM (R214): the parameter id, `addr[2:0]` (30_encoding.md R76) -/
  | getParam (id : BitVec 3)
  /-- BLOCK_START (45_signal_chain.md R172) -/
  | blockStart
  /-- FRAME (R175) -/
  | frame
  /-- BLOCK_END (R178) -/
  | blockEnd
  /-- ILLEGAL_CMD (60_exceptions.md R235): a write of `CMD` with data that is no command code -/
  | illegalCmd (data : Word)
  /-- SMOOTH.COEF (40_smoother.md R91): smoother index 0..6 -/
  | smoothCoef (p : Fin 7)
  /-- SMOOTH.TICK (R92) -/
  | smoothTick (p : Fin 7)
  /-- SMOOTH.SNAP (R93) -/
  | smoothSnap (p : Fin 7)
  /-- BQ.CLAMP (41_resonant_filter.md R103) -/
  | bqClamp (f q : F64)
  /-- BQ.COEF.LP (R104) -/
  | bqCoefLp (f q : F64)
  /-- BQ.COEF.HP (R105) -/
  | bqCoefHp (f q : F64)
  /-- BQ.NORM (R106) -/
  | bqNorm (raw : RawSet)
  /-- BQ.CHECK (R107): the instance whose registers are written, and a normalised set -/
  | bqCheck (F : FilterId) (k : Coefs)
  /-- BQ.STEP (R108) -/
  | bqStep (F : FilterId) (c : Chan) (x : F64)
  /-- BQ.RESET (R109) -/
  | bqReset (F : FilterId)
  /-- SAT.SET (42_saturation.md R122) -/
  | satSet (drv : F64)
  /-- SAT.STEP (R124) -/
  | satStep (c : Chan) (x : F64)
  /-- SAT.RESET (R126) -/
  | satReset
  /-- TONE.SET (43_tone.md R137) -/
  | toneSet (tone : F64)
  /-- SHELF.PRE (R138) -/
  | shelfPre (f gainDb : F64)
  /-- SHELF.COEF.LO (R139) -/
  | shelfCoefLo (f gainDb : F64)
  /-- SHELF.COEF.HI (R140) -/
  | shelfCoefHi (f gainDb : F64)
  /-- WOW.INIT (44_wow.md R153) -/
  | wowInit
  /-- WOW.LFO (R154) -/
  | wowLfo
  /-- WOW.DELAY (R155) -/
  | wowDelay (lfo : F64)
  /-- WOW.STEP (R156): channel, input, and the pair of WOW.DELAY -/
  | wowStep (c : Chan) (x : F64) (i : Nat) (frac : F64)
  /-- WOW.READ (R157) -/
  | wowRead (c : Chan) (i : Nat) (frac : F64)
  /-- WOW.WRITE (R158) -/
  | wowWrite (c : Chan) (x : F64)
  /-- WOW.ADVANCE (R159) -/
  | wowAdvance
  /-- IN.COND (45_signal_chain.md R180): a binary32 word -/
  | inCond (w : Word)
  /-- OUT.COND (R181) -/
  | outCond (x : F64)
deriving DecidableEq, Repr

end Sys2Proof
end

