-- ==== Sys2Proof/WellFormed.lean ====
section
/-! DEFINITION. What an instruction's operands must satisfy beyond their types. Only four rows have such a
condition: every other operand field is significant in all its bits (30_encoding.md R76, R77, R81). -/
namespace Sys2Proof

/-- ILLEGAL_CMD is a write of `CMD` whose data is none of the three command codes (60_exceptions.md R235). -/
def illegalData (data : Word) : Bool := data != 1#32 && data != 2#32 && data != 3#32

/-- The integer delay of WOW.READ: `1 <= i <= L - 1` (44_wow.md R157), and `L <= DL_MAX` (20_memory.md R64). -/
def legalDelay (i : Nat) : Bool := decide (1 ≤ i) && decide (i < Config.dlMax)

/-- The fraction of WOW.READ: a binary64 in `[0, 1)` (44_wow.md R157). Non-negative binary64 values are ordered as
their patterns, and the pattern of 1.0 is `0x3FF0000000000000`. -/
def legalFrac (frac : F64) : Bool := decide (frac.toNat < 0x3FF0000000000000)

/-- The input of BQ.STEP, SAT.STEP and WOW.WRITE and the operand of OUT.COND are finite (41_resonant_filter.md
R108, 42_saturation.md R124, 44_wow.md R158, 45_signal_chain.md R181): the exponent field is not all ones. -/
def finiteOperand (x : F64) : Bool := decide (x.toNat % 0x8000000000000000 < 0x7FF0000000000000)

/-- An instruction's operands are ones its rule gives it. The meanings are total: they say what happens to other
operands too (log 30). -/
def Instr.wellFormed : Instr → Bool
  | .illegalCmd d => illegalData d
  | .bqStep _ _ x => finiteOperand x
  | .satStep _ x => finiteOperand x
  | .wowStep _ x i frac => finiteOperand x && legalDelay i && legalFrac frac
  | .wowRead _ i frac => legalDelay i && legalFrac frac
  | .wowWrite _ x => finiteOperand x
  | .outCond x => finiteOperand x
  | .cmdPrepare | .cmdProcess | .cmdRelease => true
  | .wrFsLo _ | .wrFsHi _ | .wrMaxBlk _ | .wrNch _ | .wrNumSamp _ => true
  | .rdStatus | .rdFsLo | .rdFsHi | .rdMaxBlk | .rdNch | .rdNumSamp => true
  | .wrBlk0 _ _ | .wrBlk1 _ _ | .rdBlk0 _ | .rdBlk1 _ => true
  | .setWowDepth _ | .setLowCutFreq _ | .setLowCutQ _ | .setHighCutFreq _ | .setHighCutQ _ => true
  | .setDrive _ | .setTone _ | .setBypass _ | .getParam _ => true
  | .blockStart | .frame | .blockEnd => true
  | .smoothCoef _ | .smoothTick _ | .smoothSnap _ => true
  | .bqClamp _ _ | .bqCoefLp _ _ | .bqCoefHp _ _ | .bqNorm _ | .bqCheck _ _ | .bqReset _ => true
  | .satSet _ | .satReset | .toneSet _ | .shelfPre _ _ | .shelfCoefLo _ _ | .shelfCoefHi _ _ => true
  | .wowInit | .wowLfo | .wowDelay _ | .wowAdvance | .inCond _ => true

end Sys2Proof
end

