-- ==== Sys2Proof/Decode.lean ====
section
/-! DEFINITION. Decoding a transaction word (30_encoding.md R70 to R84), total on every 50-bit word, and the encoder
of the operations that have a transaction. -/
namespace Sys2Proof

/-- The two ports (30_encoding.md R70). -/
inductive Port | a | c
deriving DecidableEq, Repr

/-- What the decoder reads: an operation, or a reserved transaction by name (30_encoding.md R83). A reserved
transaction is no error and no row of the opcode table; its effect is `Machine.runDecoded`'s. -/
inductive Decoded where
  | op (i : Instr)
  | reservedWrite (port : Port)
  | reservedRead (port : Port)
deriving DecidableEq, Repr

/-! ### The fields of `T` (R71) -/

/-- `T[49]`: set for port C. -/
def TWord.isPortC (t : TWord) : Bool := t.getLsbD 49
/-- `T[48]`: set for a write. -/
def TWord.isWrite (t : TWord) : Bool := t.getLsbD 48
/-- `T[47:32]`. -/
def TWord.addr (t : TWord) : BitVec 16 := t.extractLsb' 32 16
/-- `T[31:0]`. -/
def TWord.data (t : TWord) : Word := t.extractLsb' 0 32

/-- The transaction word of a port, a direction, an address and write data. -/
def TWord.make (portC write : Bool) (addr : BitVec 16) (data : Word) : TWord :=
  BitVec.ofBool portC ++ BitVec.ofBool write ++ addr ++ data

/-- SETPARAM of parameter `id` (30_encoding.md R76: the listing order). -/
def setParam (id : BitVec 3) (data : Word) : Instr :=
  match id.toNat with
  | 0 => .setWowDepth data
  | 1 => .setLowCutFreq data
  | 2 => .setLowCutQ data
  | 3 => .setHighCutFreq data
  | 4 => .setHighCutQ data
  | 5 => .setDrive data
  | 6 => .setTone data
  | _ => .setBypass data

/-- A reserved transaction. -/
def reserved (port : Port) (write : Bool) : Decoded :=
  if write then .reservedWrite port else .reservedRead port

/-- Step 2 of R78: an access of `CMD`. Only three data values are commands; a read is reserved. -/
def decodeCmd (write : Bool) (data : Word) : Decoded :=
  if write then
    if data = 1#32 then .op .cmdPrepare
    else if data = 2#32 then .op .cmdProcess
    else if data = 3#32 then .op .cmdRelease
    else .op (.illegalCmd data)
  else .reservedRead .a

/-- Step 3 of R78: an access of the registers at 1 to 6. -/
def decodeRegister (write : Bool) (addr : BitVec 16) (data : Word) : Decoded :=
  if write then
    match addr.toNat with
    | 2 => .op (.wrFsLo data)
    | 3 => .op (.wrFsHi data)
    | 4 => .op (.wrMaxBlk data)
    | 5 => .op (.wrNch data)
    | 6 => .op (.wrNumSamp data)
    | _ => .reservedWrite .a
  else
    match addr.toNat with
    | 1 => .op .rdStatus
    | 2 => .op .rdFsLo
    | 3 => .op .rdFsHi
    | 4 => .op .rdMaxBlk
    | 5 => .op .rdNch
    | 6 => .op .rdNumSamp
    | _ => .reservedRead .a

/-- Step 1 of R78: a transaction on port C. -/
def decodePortC (write : Bool) (addr : BitVec 16) (data : Word) : Decoded :=
  if addr.extractLsb' 3 13 = 0x0002#13 then
    if write then .op (setParam (addr.extractLsb' 0 3) data) else .op (.getParam (addr.extractLsb' 0 3))
  else reserved .c write

/-- Steps 2 to 5 of R78: a transaction on port A. -/
def decodePortA (write : Bool) (addr : BitVec 16) (data : Word) : Decoded :=
  if addr = 0x0000#16 then decodeCmd write data
  else if addr.toNat ≤ 6 then decodeRegister write addr data
  else if addr.extractLsb' 13 3 = 0b010#3 then
    if write then .op (.wrBlk0 (addr.extractLsb' 0 13) data) else .op (.rdBlk0 (addr.extractLsb' 0 13))
  else if addr.extractLsb' 13 3 = 0b100#3 then
    if write then .op (.wrBlk1 (addr.extractLsb' 0 13) data) else .op (.rdBlk1 (addr.extractLsb' 0 13))
  else reserved .a write

/-- Decoding a transaction word, by the ordered cases of 30_encoding.md R78. The data field of a read is ignored. -/
def decode (t : TWord) : Decoded :=
  if t.isPortC then decodePortC t.isWrite t.addr t.data else decodePortA t.isWrite t.addr t.data

/-! ### The encoder -/

/-- The address of parameter `id`: `0x0010 + id` (R75). -/
def paramAddr (id : BitVec 3) : BitVec 16 := 0x0002#13 ++ id
/-- The address of `BLK[0][idx]`: `addr[15:13] = 0b010` (R74). -/
def blk0Addr (idx : BitVec 13) : BitVec 16 := 0b010#3 ++ idx
/-- The address of `BLK[1][idx]`: `addr[15:13] = 0b100` (R74). -/
def blk1Addr (idx : BitVec 13) : BitVec 16 := 0b100#3 ++ idx

/-- The transaction word of an operation; `none` for the sequencer's steps and the internal operations, which no
transaction selects (R87). The data field of a read is written as 0 (R71). -/
def encode : Instr → Option TWord
  | .cmdPrepare => some (TWord.make false true 0x0000#16 1#32)
  | .cmdProcess => some (TWord.make false true 0x0000#16 2#32)
  | .cmdRelease => some (TWord.make false true 0x0000#16 3#32)
  | .illegalCmd d => some (TWord.make false true 0x0000#16 d)
  | .wrFsLo d => some (TWord.make false true 0x0002#16 d)
  | .wrFsHi d => some (TWord.make false true 0x0003#16 d)
  | .wrMaxBlk d => some (TWord.make false true 0x0004#16 d)
  | .wrNch d => some (TWord.make false true 0x0005#16 d)
  | .wrNumSamp d => some (TWord.make false true 0x0006#16 d)
  | .rdStatus => some (TWord.make false false 0x0001#16 0#32)
  | .rdFsLo => some (TWord.make false false 0x0002#16 0#32)
  | .rdFsHi => some (TWord.make false false 0x0003#16 0#32)
  | .rdMaxBlk => some (TWord.make false false 0x0004#16 0#32)
  | .rdNch => some (TWord.make false false 0x0005#16 0#32)
  | .rdNumSamp => some (TWord.make false false 0x0006#16 0#32)
  | .wrBlk0 idx d => some (TWord.make false true (blk0Addr idx) d)
  | .wrBlk1 idx d => some (TWord.make false true (blk1Addr idx) d)
  | .rdBlk0 idx => some (TWord.make false false (blk0Addr idx) 0#32)
  | .rdBlk1 idx => some (TWord.make false false (blk1Addr idx) 0#32)
  | .setWowDepth d => some (TWord.make true true (paramAddr 0#3) d)
  | .setLowCutFreq d => some (TWord.make true true (paramAddr 1#3) d)
  | .setLowCutQ d => some (TWord.make true true (paramAddr 2#3) d)
  | .setHighCutFreq d => some (TWord.make true true (paramAddr 3#3) d)
  | .setHighCutQ d => some (TWord.make true true (paramAddr 4#3) d)
  | .setDrive d => some (TWord.make true true (paramAddr 5#3) d)
  | .setTone d => some (TWord.make true true (paramAddr 6#3) d)
  | .setBypass d => some (TWord.make true true (paramAddr 7#3) d)
  | .getParam id => some (TWord.make true false (paramAddr id) 0#32)
  | .blockStart | .frame | .blockEnd => none
  | .smoothCoef _ | .smoothTick _ | .smoothSnap _ => none
  | .bqClamp _ _ | .bqCoefLp _ _ | .bqCoefHp _ _ | .bqNorm _ | .bqCheck _ _ | .bqStep _ _ _ | .bqReset _ => none
  | .satSet _ | .satStep _ _ | .satReset => none
  | .toneSet _ | .shelfPre _ _ | .shelfCoefLo _ _ | .shelfCoefHi _ _ => none
  | .wowInit | .wowLfo | .wowDelay _ | .wowStep _ _ _ _ | .wowRead _ _ _ | .wowWrite _ _ | .wowAdvance => none
  | .inCond _ | .outCond _ => none

/-- The port an operation is issued on (46_host_commands.md R190); none for the sequencer's steps and the internal
operations (30_encoding.md R87). -/
def Instr.port : Instr → Option Port
  | .cmdPrepare | .cmdProcess | .cmdRelease | .illegalCmd _ => some .a
  | .wrFsLo _ | .wrFsHi _ | .wrMaxBlk _ | .wrNch _ | .wrNumSamp _ => some .a
  | .rdStatus | .rdFsLo | .rdFsHi | .rdMaxBlk | .rdNch | .rdNumSamp => some .a
  | .wrBlk0 _ _ | .wrBlk1 _ _ | .rdBlk0 _ | .rdBlk1 _ => some .a
  | .setWowDepth _ | .setLowCutFreq _ | .setLowCutQ _ | .setHighCutFreq _ | .setHighCutQ _ => some .c
  | .setDrive _ | .setTone _ | .setBypass _ | .getParam _ => some .c
  | .blockStart | .frame | .blockEnd => none
  | .smoothCoef _ | .smoothTick _ | .smoothSnap _ => none
  | .bqClamp _ _ | .bqCoefLp _ _ | .bqCoefHp _ _ | .bqNorm _ | .bqCheck _ _ | .bqStep _ _ _ | .bqReset _ => none
  | .satSet _ | .satStep _ _ | .satReset => none
  | .toneSet _ | .shelfPre _ _ | .shelfCoefLo _ _ | .shelfCoefHi _ _ => none
  | .wowInit | .wowLfo | .wowDelay _ | .wowStep _ _ _ _ | .wowRead _ _ _ | .wowWrite _ _ | .wowAdvance => none
  | .inCond _ | .outCond _ => none

/-! ### The table of 30_encoding.md R79, as match and mask -/

/-- One row: match, mask, and the operation read from a matching word. -/
structure TableRow where
  matchBits : TWord
  mask : TWord
  build : TWord → Instr

/-- The 28 rows of R79 that have a match and a mask, in the table's order. -/
def opTable : List TableRow :=
  [⟨0x1000000000001#50, 0x3FFFFFFFFFFFF#50, fun _ => .cmdPrepare⟩,
   ⟨0x1000000000002#50, 0x3FFFFFFFFFFFF#50, fun _ => .cmdProcess⟩,
   ⟨0x1000000000003#50, 0x3FFFFFFFFFFFF#50, fun _ => .cmdRelease⟩,
   ⟨0x1000200000000#50, 0x3FFFF00000000#50, fun t => .wrFsLo t.data⟩,
   ⟨0x1000300000000#50, 0x3FFFF00000000#50, fun t => .wrFsHi t.data⟩,
   ⟨0x1000400000000#50, 0x3FFFF00000000#50, fun t => .wrMaxBlk t.data⟩,
   ⟨0x1000500000000#50, 0x3FFFF00000000#50, fun t => .wrNch t.data⟩,
   ⟨0x1000600000000#50, 0x3FFFF00000000#50, fun t => .wrNumSamp t.data⟩,
   ⟨0x0000100000000#50, 0x3FFFF00000000#50, fun _ => .rdStatus⟩,
   ⟨0x0000200000000#50, 0x3FFFF00000000#50, fun _ => .rdFsLo⟩,
   ⟨0x0000300000000#50, 0x3FFFF00000000#50, fun _ => .rdFsHi⟩,
   ⟨0x0000400000000#50, 0x3FFFF00000000#50, fun _ => .rdMaxBlk⟩,
   ⟨0x0000500000000#50, 0x3FFFF00000000#50, fun _ => .rdNch⟩,
   ⟨0x0000600000000#50, 0x3FFFF00000000#50, fun _ => .rdNumSamp⟩,
   ⟨0x1400000000000#50, 0x3E00000000000#50, fun t => .wrBlk0 (t.extractLsb' 32 13) t.data⟩,
   ⟨0x1800000000000#50, 0x3E00000000000#50, fun t => .wrBlk1 (t.extractLsb' 32 13) t.data⟩,
   ⟨0x0400000000000#50, 0x3E00000000000#50, fun t => .rdBlk0 (t.extractLsb' 32 13)⟩,
   ⟨0x0800000000000#50, 0x3E00000000000#50, fun t => .rdBlk1 (t.extractLsb' 32 13)⟩,
   ⟨0x3001000000000#50, 0x3FFFF00000000#50, fun t => .setWowDepth t.data⟩,
   ⟨0x3001100000000#50, 0x3FFFF00000000#50, fun t => .setLowCutFreq t.data⟩,
   ⟨0x3001200000000#50, 0x3FFFF00000000#50, fun t => .setLowCutQ t.data⟩,
   ⟨0x3001300000000#50, 0x3FFFF00000000#50, fun t => .setHighCutFreq t.data⟩,
   ⟨0x3001400000000#50, 0x3FFFF00000000#50, fun t => .setHighCutQ t.data⟩,
   ⟨0x3001500000000#50, 0x3FFFF00000000#50, fun t => .setDrive t.data⟩,
   ⟨0x3001600000000#50, 0x3FFFF00000000#50, fun t => .setTone t.data⟩,
   ⟨0x3001700000000#50, 0x3FFFF00000000#50, fun t => .setBypass t.data⟩,
   ⟨0x2001000000000#50, 0x3FFF800000000#50, fun t => .getParam (t.extractLsb' 32 3)⟩,
   ⟨0x1000000000000#50, 0x3FFFF00000000#50, fun t => .illegalCmd t.data⟩]

/-- The decoder R79 describes: the rows in the table's order, the first whose `(T & mask) = match`. -/
def decodeByTable (t : TWord) : Option Instr :=
  (opTable.find? fun r => t &&& r.mask == r.matchBits).map fun r => r.build t

/-- An operation, or none for a reserved transaction. -/
def Decoded.op? : Decoded → Option Instr
  | .op i => some i
  | .reservedWrite _ => none
  | .reservedRead _ => none

/-- The instruction the decoder reads from a transaction word given as a number: `T` has 50 bits (R71), and bits
above them do not exist (log 22). `nbits` is how many bits the table gives the row; higher ones are 0. -/
def decodeTableWord (nbits w : Nat) : Option Instr :=
  (decode (BitVec.ofNat 50 (w % 2 ^ nbits))).op?

end Sys2Proof
end

