-- ==== Sys2Proof/Machine/Float.lean ====
section
/-! DEFINITION. IEEE-754 binary64 and binary32 arithmetic on bit patterns, as 00_scope.md R12 and R13 use it: round
to nearest, ties to even, one rounding per operation, nothing fused. Each operation converts its operands to exact
integers counted in units of the least positive subnormal (2^-1074), computes exactly, and rounds once at the end. -/
namespace Sys2Proof.Machine

/-! ### Fields and classes of a binary64 pattern -/

/-- The sign bit. -/
def F64.neg? (x : F64) : Bool := x.getLsbD 63
/-- The pattern without its sign: ordered as the magnitudes are. -/
def F64.mag (x : F64) : Nat := x.toNat % 0x8000000000000000
/-- The magnitude pattern of infinity; every NaN's is above it. -/
def infMag : Nat := 0x7FF0000000000000
/-- The magnitude pattern of 1.0. -/
def oneMag : Nat := 0x3FF0000000000000
/-- The magnitude pattern of the largest finite value. -/
def maxMag : Nat := 0x7FEFFFFFFFFFFFFF

def isNaN (x : F64) : Bool := decide (infMag < F64.mag x)
def isInf (x : F64) : Bool := decide (F64.mag x = infMag)
/-- `finite(v)` of 00_scope.md R13. -/
def finite (x : F64) : Bool := decide (F64.mag x < infMag)

/-- A sign and a magnitude pattern. -/
def packF64 (neg : Bool) (m : Nat) : F64 := BitVec.ofNat 64 (m + if neg then 0x8000000000000000 else 0)

def posZero : F64 := 0x0000000000000000#64
def negZero : F64 := 0x8000000000000000#64
def one : F64 := 0x3FF0000000000000#64
def negOne : F64 := 0xBFF0000000000000#64
def two : F64 := 0x4000000000000000#64
def negTwo : F64 := 0xC000000000000000#64
def forty : F64 := 0x4044000000000000#64
def thousand : F64 := 0x408F400000000000#64

/-- A NaN whose sign and payload are free (log 14): a quiet NaN delivered by operation number `op` on `x` and `y`. -/
def nanF64 (op : Nat) (x y : F64) : F64 :=
  packF64 ((Config.nanBits op x y).getLsbD 63) (0x7FF8000000000000 + (Config.nanBits op x y).toNat % 0x8000000000000)

/-! ### Exact value of a finite pattern -/

/-- 2^1074: one, in units of the least positive subnormal. -/
def unitsPerOne : Nat := 2 ^ 1074

/-- The magnitude of a pattern with `fracBits` fraction bits, in units of that format's least subnormal. -/
def unitsOf (fracBits mag : Nat) : Nat :=
  if mag / 2 ^ fracBits = 0 then mag
  else (2 ^ fracBits + mag % 2 ^ fracBits) * 2 ^ (mag / 2 ^ fracBits - 1)

/-- The magnitude of a finite binary64, in units of 2^-1074. -/
def F64.units (x : F64) : Nat := unitsOf 52 (F64.mag x)

/-- The value of a finite binary64, in units of 2^-1074. -/
def F64.exact (x : F64) : Int := if F64.neg? x then -(F64.units x : Int) else (F64.units x : Int)

/-! ### Rounding -/

/-- The number of low bits of `n` that a significand of `fracBits + 1` bits has no room for. -/
def excess (fracBits n : Nat) : Nat := Nat.log2 n - fracBits

/-- `p / q` rounded to an integer, ties to even. -/
def roundHalfEven (p q : Nat) : Nat :=
  if 2 * (p % q) < q then p / q
  else if q < 2 * (p % q) then p / q + 1
  else if (p / q) % 2 = 0 then p / q else p / q + 1

/-- The magnitude pattern nearest to `p / q` units (R12: round to nearest, ties to even), at most `inf`. A
significand `m` scaled by `2^k` has the pattern `k * 2^fracBits + m`, and a carry out of the significand moves into
the exponent by itself. -/
def nearestMag (fracBits inf p q : Nat) : Nat :=
  min inf (excess fracBits (p / q) * 2 ^ fracBits + roundHalfEven p (q * 2 ^ excess fracBits (p / q)))

/-- The magnitude pattern of `p / q` units rounded towards zero, at most the largest finite one. -/
def belowMag (p q : Nat) : Nat :=
  min maxMag (excess 52 (p / q) * 2 ^ 52 + p / (q * 2 ^ excess 52 (p / q)))

/-- The magnitude pattern of `p / q` units rounded away from zero, at most infinity. -/
def aboveMag (p q : Nat) : Nat :=
  min infMag (excess 52 (p / q) * 2 ^ 52 + (p + q * 2 ^ excess 52 (p / q) - 1) / (q * 2 ^ excess 52 (p / q)))

/-- The binary64 nearest to an exact number of units; an exact zero is `+0.0`. -/
def roundUnits (z : Int) : F64 := packF64 (decide (z < 0)) (nearestMag 52 infMag z.natAbs 1)

/-! ### Arithmetic (R12) -/

/-- Unary minus, exact. -/
def fneg (x : F64) : F64 := x ^^^ 0x8000000000000000#64

/-- `|v|`. -/
def fabs (x : F64) : F64 := x &&& 0x7FFFFFFFFFFFFFFF#64

/-- Addition. The sum of two zeros of one sign keeps it; every other exact zero is `+0.0`. -/
def fadd (x y : F64) : F64 :=
  if isNaN x || isNaN y then nanF64 0 x y
  else if isInf x then (if isInf y && (F64.neg? x != F64.neg? y) then nanF64 0 x y else x)
  else if isInf y then y
  else if F64.exact x + F64.exact y = 0 then (if F64.neg? x && F64.neg? y then negZero else posZero)
  else roundUnits (F64.exact x + F64.exact y)

/-- Subtraction. -/
def fsub (x y : F64) : F64 := fadd x (fneg y)

/-- The sign of a product or a quotient. -/
def signXor (x y : F64) : Bool := F64.neg? x != F64.neg? y

/-- Multiplication. -/
def fmul (x y : F64) : F64 :=
  if isNaN x || isNaN y then nanF64 1 x y
  else if isInf x || isInf y then
    (if F64.mag x = 0 ∨ F64.mag y = 0 then nanF64 1 x y else packF64 (signXor x y) infMag)
  else packF64 (signXor x y) (nearestMag 52 infMag (F64.units x * F64.units y) unitsPerOne)

/-- Division. -/
def fdiv (x y : F64) : F64 :=
  if isNaN x || isNaN y then nanF64 2 x y
  else if isInf x then (if isInf y then nanF64 2 x y else packF64 (signXor x y) infMag)
  else if isInf y then packF64 (signXor x y) 0
  else if F64.mag y = 0 then (if F64.mag x = 0 then nanF64 2 x y else packF64 (signXor x y) infMag)
  else packF64 (signXor x y) (nearestMag 52 infMag (F64.units x * unitsPerOne) (F64.units y))

/-- Newton's iteration towards the integer square root of `n` from above, with fuel. -/
def isqrtLoop : Nat → Nat → Nat → Nat
  | 0, _, g => g
  | fuel + 1, n, g => if (g + n / g) / 2 < g then isqrtLoop fuel n ((g + n / g) / 2) else g

/-- The integer square root. Each round of the iteration from a power of two above the root at least halves the
distance, so the fuel suffices. -/
def isqrt (n : Nat) : Nat :=
  if n = 0 then 0 else isqrtLoop (Nat.log2 n + 2) n (2 ^ (Nat.log2 n / 2 + 1))

/-- Square root. The root of `u` units is `isqrt (u * 2^1074)` units and a remainder; doubling it and setting the low
bit when the root is not exact keeps every rounding decision. -/
def fsqrt (x : F64) : F64 :=
  if isNaN x then nanF64 3 x x
  else if F64.mag x = 0 then x
  else if F64.neg? x then nanF64 3 x x
  else if isInf x then x
  else
    let n := F64.units x * unitsPerOne
    let r := isqrt n
    packF64 false (nearestMag 52 infMag (2 * r + if r * r = n then 0 else 1) 2)

/-! ### Comparisons (R12: any comparison with NaN is false) -/

/-- A key that orders the values that are not NaN, the two zeros being equal. -/
def F64.key (x : F64) : Int := if F64.neg? x then -(F64.mag x : Int) else (F64.mag x : Int)

def flt (x y : F64) : Bool := !isNaN x && !isNaN y && decide (F64.key x < F64.key y)
def fle (x y : F64) : Bool := !isNaN x && !isNaN y && decide (F64.key x ≤ F64.key y)
/-- `x > y`. -/
def fgt (x y : F64) : Bool := flt y x
/-- `x >= y`. -/
def fge (x y : F64) : Bool := fle y x

/-! ### Helper functions (00_scope.md R13) -/

/-- `sanitize(v)`: NaN and the infinities become `+0.0`. -/
def sanitize (v : F64) : F64 := if finite v then v else posZero
/-- `flush(v)`: a magnitude below `1e-15` becomes `+0.0`. -/
def flush (v : F64) : F64 := if flt (fabs v) Config.flushThreshold then posZero else v
/-- `cond(v) = flush(sanitize(v))`. -/
def cond (v : F64) : F64 := flush (sanitize v)
/-- `clamp(v, lo, hi)`. -/
def clamp (v lo hi : F64) : F64 := if flt v lo then lo else if fgt v hi then hi else v

/-! ### Integers (R12) -/

/-- `float(i)`: exact for magnitudes below 2^53. -/
def floatOf (i : Int) : F64 := roundUnits (i * (unitsPerOne : Int))
/-- `floor(v)`: the greatest integer not above a finite `v`; free for another operand (log 16). -/
def floorF64 (v : F64) : Int := if finite v then F64.exact v / (unitsPerOne : Int) else Config.integerOf v
/-- The least integer not below a finite `v` (44_wow.md R152); free for another operand (log 16). -/
def ceilF64 (v : F64) : Int := if finite v then -(-F64.exact v / (unitsPerOne : Int)) else Config.integerOf v

/-! ### binary32 -/

def F32.neg? (w : Word) : Bool := w.getLsbD 31
def F32.mag (w : Word) : Nat := w.toNat % 0x80000000
/-- The magnitude pattern of the binary32 infinity. -/
def inf32Mag : Nat := 0x7F800000
def isNaN32 (w : Word) : Bool := decide (inf32Mag < F32.mag w)
def isInf32 (w : Word) : Bool := decide (F32.mag w = inf32Mag)
def finite32 (w : Word) : Bool := decide (F32.mag w < inf32Mag)
def packF32 (neg : Bool) (m : Nat) : Word := BitVec.ofNat 32 (m + if neg then 0x80000000 else 0)
def F32.key (w : Word) : Int := if F32.neg? w then -(F32.mag w : Int) else (F32.mag w : Int)
/-- `v < u` in binary32. -/
def flt32 (v u : Word) : Bool := !isNaN32 v && !isNaN32 u && decide (F32.key v < F32.key u)
/-- `v >= u` in binary32. -/
def fge32 (v u : Word) : Bool := !isNaN32 v && !isNaN32 u && decide (F32.key u ≤ F32.key v)

/-- The ratio of the two formats' least subnormals: 2^-149 = 2^925 * 2^-1074. -/
def units32 : Nat := 2 ^ 925

/-- `widen32(v)`: exact; NaN stays NaN (its payload is free), infinities stay infinite. -/
def widen32 (w : Word) : F64 :=
  if isNaN32 w then nanF64 4 (w.setWidth 64) posZero
  else if isInf32 w then packF64 (F32.neg? w) infMag
  else packF64 (F32.neg? w) (nearestMag 52 infMag (unitsOf 23 (F32.mag w) * units32) 1)

/-- `round32(v)`: to nearest, ties to even; a magnitude above the range gives an infinity, a NaN gives a NaN. -/
def round32 (x : F64) : Word :=
  if isNaN x then packF32 ((Config.nanBits 5 x x).getLsbD 31) (0x7FC00000 + (Config.nanBits 5 x x).toNat % 0x400000)
  else if isInf x then packF32 (F64.neg? x) inf32Mag
  else packF32 (F64.neg? x) (nearestMag 23 inf32Mag (F64.units x) units32)

/-- `sanitize32(w)`: NaN and the infinities become `+0.0f`. -/
def sanitize32 (w : Word) : Word := if finite32 w then w else 0#32

end Sys2Proof.Machine
end

