-- ==== Sys2Proof/Machine/Num.lean ====
section
/-! DEFINITION. The numerics record `NUM` of 00_scope.md R14. What R14 promises of each function is kept by
construction, and nothing else is fixed: the result for a finite operand is one of the two binary64 values that
bracket the exact real result (a), and WHICH of the two is a free value (Config.numSplit, Config.numUp). The bracket
is computed by interval arithmetic in fixed point, 320 bits below the point; log 12 gives the error bounds. -/
namespace Sys2Proof.Machine

/-! ### Fixed-point series, in units of 2^-320 -/

/-- 2^320: one. -/
def fixOne : Nat := 2 ^ 320
/-- 2^754 = 2^(1074-320): units of 2^-1074 in one fixed-point unit. -/
def fixUnits : Nat := 2 ^ 754
/-- `floor(2^320 * ln 2)`. -/
def ln2Fix : Nat :=
  0xb17217f7d1cf79abc9e3b39803f2f6af40f343267298b62d8a0d175b8baafa2be7b876206debac98
/-- `floor(2^320 * ln 10)`. -/
def ln10Fix : Nat :=
  0x24d763776aaa2b05ba95b58ae0b4c28a38a3fb3e76977e43a0f187a0807c0b5ca58bc0b5ec6a04173
/-- `floor(2^1408 * π/2)`. -/
def halfPiFix : Nat :=
  0x1921fb54442d18469898cc51701b839a252049c1114cf98e804177d4c76273644a29410f31c6809bbdf2a33679a748636605614dbe4be286e9fc26adadaa3848bc90b6aecc4bcfd8de89885d34c6fdad617feb96de80d6fdbdc70d7f6b5133f4b5d3e4822f8963fcc9250cca3d9c8b67b8400f97142c77e0b31b4906c38aba734d22c7f51fa499ebf06caba47b9475b2c38c5e6ac410aa5773daa520ee12d2cdace186a9c95793009e2e8d811943042f8

/-- What every fixed-point result below may be off by, in units of 2^-320: far above the sum of its truncation
errors, far below what would blur a bracket (log 12). -/
def slack : Nat := 2 ^ 16

/-- The terms `r^n / n!` summed from number `n` on, `t` being term `n - 1`. -/
def expTerms : Nat → Nat → Nat → Nat → Nat → Nat
  | 0, _, _, _, acc => acc
  | fuel + 1, n, t, r, acc => expTerms fuel (n + 1) (t * r / (n * fixOne)) r (acc + t * r / (n * fixOne))

/-- `exp(r)` for `0 <= r < 1`. -/
def expSmall (r : Nat) : Nat := expTerms 80 1 fixOne r fixOne

/-- An alternating series in `r^2` summed from term number `n` on: each term is the one before it times
`r^2 / ((n + 1) * (n + 2))`, with the other sign. -/
def altTerms : Nat → Nat → Int → Nat → Int → Int
  | 0, _, _, _, acc => acc
  | fuel + 1, n, t, r2, acc =>
    altTerms fuel (n + 2) (-(t * r2 / ((n + 1) * (n + 2) * fixOne : Nat))) r2
      (acc - t * r2 / ((n + 1) * (n + 2) * fixOne : Nat))

/-- `sin(r)` for `0 <= r <= π/2`. -/
def sinSmall (r : Nat) : Nat := (altTerms 45 1 r (r * r / fixOne) r).toNat
/-- `cos(r)` for `0 <= r <= π/2`. -/
def cosSmall (r : Nat) : Nat := (altTerms 45 0 fixOne (r * r / fixOne) fixOne).toNat

/-! ### Brackets: the two magnitude patterns around an exact magnitude -/

/-- The magnitude patterns below and above an exact result; equal where the result is representable. -/
structure Bracket where
  below : Nat
  above : Nat
deriving DecidableEq, Repr

/-- `exp(y)` as an interval `lo * 2^shift .. hi * 2^shift` in units of 2^-320, for `y >= 0` in those units. -/
structure ExpInterval where
  lo : Nat
  hi : Nat
  shift : Nat
deriving DecidableEq, Repr

def expInterval (y : Nat) : ExpInterval :=
  ⟨expSmall (y % ln2Fix) - slack, expSmall (y % ln2Fix) + slack, y / ln2Fix⟩

/-- The bracket of `exp(y)`. -/
def ExpInterval.bracket (e : ExpInterval) : Bracket :=
  ⟨belowMag (e.lo * 2 ^ e.shift * fixUnits) 1, aboveMag (e.hi * 2 ^ e.shift * fixUnits) 1⟩

/-- The bracket of `exp(-y)`. -/
def ExpInterval.inverseBracket (e : ExpInterval) : Bracket :=
  ⟨belowMag (fixOne * unitsPerOne) (e.hi * 2 ^ e.shift), aboveMag (fixOne * unitsPerOne) (e.lo * 2 ^ e.shift)⟩

/-- 2^-60 in units of 2^-1074: below it `exp` and `pow10` lie strictly between 1 and a neighbour of 1. -/
def tinyExp : Nat := 2 ^ 1014
/-- 2^-27 in units of 2^-1074: below it `x - x^3/3`, `x - x^3/6` lie strictly between `x` and the value before it,
and `1 - x^2/2` between 1 and the value before it. -/
def tinyTrig : Nat := 2 ^ 1047

/-- The bracket around 1 from above or from below. -/
def aboveOne : Bracket := ⟨oneMag, oneMag + 1⟩
def belowOne : Bracket := ⟨oneMag - 1, oneMag⟩
/-- The bracket of a result beyond the largest finite value, and of one below the least subnormal. -/
def overflowBracket : Bracket := ⟨maxMag, infMag⟩
def underflowBracket : Bracket := ⟨0, 1⟩

/-- The bracket of `exp(±u)` for a magnitude of `u > 0` units. -/
def expBracket (neg : Bool) (u : Nat) : Bracket :=
  if u < tinyExp then (if neg then belowOne else aboveOne)
  else if neg then
    (if 746 * unitsPerOne ≤ u then underflowBracket else (expInterval (u / fixUnits)).inverseBracket)
  else (if 710 * unitsPerOne ≤ u then overflowBracket else (expInterval (u / fixUnits)).bracket)

/-- The bracket of `10^(±u)` for `u > 0` units. The integers 0 to 22 have a representable power. -/
def pow10Bracket (neg : Bool) (u : Nat) : Bracket :=
  if u < tinyExp then (if neg then belowOne else aboveOne)
  else if neg then
    (if 325 * unitsPerOne ≤ u then underflowBracket
     else (expInterval (u * ln10Fix / unitsPerOne)).inverseBracket)
  else if 309 * unitsPerOne ≤ u then overflowBracket
  else if u % unitsPerOne = 0 ∧ u / unitsPerOne ≤ 22 then
    ⟨nearestMag 52 infMag (10 ^ (u / unitsPerOne) * unitsPerOne) 1,
     nearestMag 52 infMag (10 ^ (u / unitsPerOne) * unitsPerOne) 1⟩
  else (expInterval (u * ln10Fix / unitsPerOne)).bracket

/-- `(e^(2u) - 1) / (e^(2u) + 1)` increases with the exponential, so its ends come from the interval's ends. -/
def ExpInterval.tanhBracket (e : ExpInterval) : Bracket :=
  ⟨belowMag ((e.lo * 2 ^ e.shift - fixOne) * unitsPerOne) (e.lo * 2 ^ e.shift + fixOne),
   aboveMag ((e.hi * 2 ^ e.shift - fixOne) * unitsPerOne) (e.hi * 2 ^ e.shift + fixOne)⟩

/-- The bracket of `tanh(u)` for `u > 0` units, `mag` being the operand's own magnitude pattern. -/
def tanhBracket (mag u : Nat) : Bracket :=
  if u < tinyTrig then ⟨mag - 1, mag⟩
  else if 22 * unitsPerOne ≤ u then belowOne
  else (expInterval (2 * u / fixUnits)).tanhBracket

/-- The quadrant of an angle of `u` units, and the angle within it in units of 2^-320. -/
def quadrant (u : Nat) : Nat := (u * 2 ^ 334 / halfPiFix) % 4
def angle (u : Nat) : Nat := u * 2 ^ 334 % halfPiFix / 2 ^ 1088

/-- The bracket of a fixed-point magnitude. -/
def fixBracket (s : Nat) : Bracket := ⟨belowMag ((s - slack) * fixUnits) 1, aboveMag ((s + slack) * fixUnits) 1⟩

/-- The bracket of `|sin(u)|` and its sign for `u > 0` units. -/
def sinBracket (mag u : Nat) : Bool × Bracket :=
  if u < tinyTrig then (false, ⟨mag - 1, mag⟩)
  else (decide (2 ≤ quadrant u), fixBracket (if quadrant u % 2 = 0 then sinSmall (angle u) else cosSmall (angle u)))

/-- The bracket of `|cos(u)|` and its sign. -/
def cosBracket (u : Nat) : Bool × Bracket :=
  if u < tinyTrig then (false, belowOne)
  else (decide (quadrant u = 1 ∨ quadrant u = 2),
    fixBracket (if quadrant u % 2 = 0 then cosSmall (angle u) else sinSmall (angle u)))

/-! ### The free choice within a bracket -/

/-- Where the two ends differ, a monotone function takes the lower end up to a free operand and the upper end from
it on (R14(a), (d)). For results that fall as the magnitude grows the key is the operand's own order key. -/
def Bracket.split (f : Config.NumFn) (key : Int) (b : Bracket) : Nat :=
  if key < Config.numSplit f (packF64 false b.below) then b.below else b.above

/-- Of `sin` and `cos` R14 promises no monotony: the choice is free for each magnitude. -/
def Bracket.either (f : Config.NumFn) (x : F64) (b : Bracket) : Nat :=
  if Config.numUp f (fabs x) then b.above else b.below

/-! ### The five functions (R14): exact points (b), ranges (c), symmetry (d), special operands (e)

The `min` and `max` with the pattern of 1.0 (and with the least subnormal for `pow10`) never act on a bracket; they
make the ranges of R14(c) evident. -/

/-- `NUM.exp`. R14(e): NaN for a NaN, `exp(-inf) = 0`. `exp(+inf)` is not stated; being monotone it is one of the
two values of any overflowing operand (log 15). -/
def numExp (x : F64) : F64 :=
  if isNaN x then nanF64 6 x x
  else if F64.mag x = 0 then one
  else if F64.neg? x then
    (if isInf x then posZero
     else packF64 false (min oneMag ((expBracket true (F64.units x)).split .exp (F64.key x))))
  else packF64 false (max oneMag ((expBracket false (F64.units x)).split .exp (F64.key x)))

/-- `NUM.pow10`. -/
def numPow10 (x : F64) : F64 :=
  if isNaN x then nanF64 7 x x
  else if F64.mag x = 0 then one
  else if F64.neg? x then
    packF64 false (max 1 (min oneMag ((pow10Bracket true (F64.units x)).split .pow10 (F64.key x))))
  else packF64 false (max oneMag ((pow10Bracket false (F64.units x)).split .pow10 (F64.key x)))

/-- `NUM.tanh`, odd: the magnitude comes from the operand's magnitude. -/
def numTanh (x : F64) : F64 :=
  if isNaN x then nanF64 8 x x
  else if F64.mag x = 0 then x
  else if isInf x then packF64 (F64.neg? x) oneMag
  else packF64 (F64.neg? x) (min oneMag ((tanhBracket (F64.mag x) (F64.units x)).split .tanh (F64.mag x)))

/-- `NUM.sin`, odd. -/
def numSin (x : F64) : F64 :=
  if isNaN x || isInf x then nanF64 9 x x
  else if F64.mag x = 0 then x
  else packF64 (F64.neg? x != (sinBracket (F64.mag x) (F64.units x)).1)
    (min oneMag ((sinBracket (F64.mag x) (F64.units x)).2.either .sin x))

/-- `NUM.cos`, even. -/
def numCos (x : F64) : F64 :=
  if isNaN x || isInf x then nanF64 10 x x
  else if F64.mag x = 0 then one
  else packF64 (cosBracket (F64.units x)).1 (min oneMag ((cosBracket (F64.units x)).2.either .cos x))

/-- This hardware's `NUM`. -/
def hardwareNum : Config.Numerics :=
  { exp := numExp, sin := numSin, cos := numCos, tanh := numTanh, pow10 := numPow10 }

end Sys2Proof.Machine
end

