-- ==== Sys2Proof/Machine/State.lean ====
section
/-! DEFINITION. The state of TAPECORE as plain data (10_state.md), and the machine right after hardware reset (R42,
first column). Where R42 says an element "holds no value" after reset, the model names one (log 5 to log 8). -/
namespace Sys2Proof.Machine

/-- The lifecycle state (10_state.md R22). -/
inductive Lifecycle | unprepared | idle | busy
deriving DecidableEq, Repr, Inhabited

/-- Which sequencer step is next (R23). -/
inductive BlockPhase | start | frames | finish
deriving DecidableEq, Repr, Inhabited

/-- The block context (R23), meaningful only while `lc = BUSY`. -/
structure BlockCtx where
  /-- `nsamp`: the block's frame count -/
  nsamp : Nat
  /-- `frameIdx`: the next frame to process -/
  frameIdx : Nat
  /-- `phase`; its `END` is `finish` here -/
  phase : BlockPhase
  /-- `byp`: Bypass as latched at BLOCK_START -/
  byp : Bool
deriving DecidableEq, Repr, Inhabited

/-- One value for each channel (R41). -/
structure Pair (α : Type) where
  c0 : α
  c1 : α
deriving DecidableEq, Repr, Inhabited

/-- A smoother (R32). -/
structure Smoother where
  cur : F64
  coeff : F64
deriving DecidableEq, Repr, Inhabited

/-- A biquad's two-sample history in one channel (R33). -/
structure Hist where
  x1 : F64
  x2 : F64
  y1 : F64
  y2 : F64
deriving DecidableEq, Repr, Inhabited

/-- A biquad instance (R33): one coefficient set, a history for each channel. -/
structure Biquad where
  k : Coefs
  h : Pair Hist
deriving DecidableEq, Repr, Inhabited

/-- The saturation stage (R35): `SAT.g`, `SAT.norm`, `SAT.alp`, and `SAT.lp[c]`. -/
structure Saturation where
  g : F64
  norm : F64
  alp : F64
  lp : Pair F64
deriving DecidableEq, Repr, Inhabited

/-- The active configuration and the registers of the DSP state (R31 to R36): everything that "holds no value" in
`UNPREPARED` but the delay memories. -/
structure Dsp where
  /-- `fs`, a binary64 (R31) -/
  fs : F64
  /-- `maxBlk` (R31) -/
  maxBlk : Nat
  /-- `nch` (R31) -/
  nch : Nat
  /-- `L`, the delay-line length in elements (R31) -/
  len : Nat
  /-- `phaseInc` (R31) -/
  phaseInc : F64
  /-- `S[0..6]` (R32) -/
  smooth : Vector Smoother 7
  /-- `LCF` (R33) -/
  lcf : Biquad
  /-- `LSF` (R33) -/
  lsf : Biquad
  /-- `HSF` (R33) -/
  hsf : Biquad
  /-- `HCF` (R33) -/
  hcf : Biquad
  /-- `SAT` (R35) -/
  sat : Saturation
  /-- `WOW.phase` (R36) -/
  wowPhase : F64
  /-- `WOW.wp` (R36) -/
  wowPtr : Nat
deriving DecidableEq, Repr, Inhabited

/-- What `SHELF.PRE` computes for the two shelves (43_tone.md R138): the values of its lines 1 to 11. -/
structure ShelfPre where
  f : F64
  A : F64
  w0 : F64
  cw : F64
  sw : F64
  alpha : F64
  beta : F64
  ap1 : F64
  am1 : F64
  m : F64
  p : F64
deriving DecidableEq, Repr, Inhabited

/-- What an internal operation answers (R176: wires, not state). An internal operation executed on its own leaves
its answer in `State.wire`; the sequencer's steps never read or write that field (log 18). -/
inductive Wire where
  | none
  | real (v : F64)
  | pair (f q : F64)
  | raw (r : RawSet)
  | coefs (k : Coefs)
  | shelf (p : ShelfPre)
  | delay (i : Nat) (frac : F64)
  | word (w : Word)
deriving DecidableEq, Repr, Inhabited

/-- Who takes a step (10_state.md R20; the reset input: 70_reset_and_hazards.md R260). -/
inductive Agent | audioHost | controlHost | sequencer | resetInput
deriving DecidableEq, Repr, Inhabited

/-- The machine. -/
structure State where
  /-- `lc` (R22); `STATUS.PREPARED` and `STATUS.BUSY` are computed from it (R26) -/
  lc : Lifecycle
  /-- the block context (R23) -/
  ctx : BlockCtx
  /-- `STATUS.CFG_ERR` (R26) -/
  cfgErr : Bool
  /-- `STATUS.SEQ_ERR` (R26) -/
  seqErr : Bool
  /-- `STATUS.ERRCODE` (R26) -/
  errCode : BitVec 4
  /-- `CFG_FS_LO` (R27) -/
  cfgFsLo : Word
  /-- `CFG_FS_HI` (R27) -/
  cfgFsHi : Word
  /-- `CFG_MAXBLK` (R28) -/
  cfgMaxBlk : Word
  /-- `CFG_NCH` (R28) -/
  cfgNch : Word
  /-- `NUMSAMP` (R29) -/
  numSamp : Word
  /-- `H[0..7]`, binary32 patterns (R30) -/
  holder : Vector Word 8
  /-- the active configuration and the DSP registers (R31 to R36) -/
  dsp : Dsp
  /-- `BLK[0]`, `BLK[1]` (R37) -/
  blk : Pair (Memory 32)
  /-- `DL[0]`, `DL[1]` (R38) -/
  dl : Pair (Memory 64)
  /-- the model's own: the audio host's transactions not yet accepted, the oldest first (log 2) -/
  portA : List Access
  /-- the model's own: the control host's transactions not yet accepted (log 2) -/
  portC : List Access
  /-- the model's own: which agent takes each of the next steps (log 1) -/
  schedule : List Agent
  /-- the model's own: the word the last completed port A read returned (log 4) -/
  replyA : Word
  /-- the model's own: the word the last completed port C read returned (log 4) -/
  replyC : Word
  /-- the model's own: what the last internal operation executed on its own answered (log 18) -/
  wire : Wire
  /-- the model's own: how many values have been lost, the index of the next free value (log 17) -/
  free : Nat
deriving DecidableEq, Repr

/-- Why the machine could stop with a fault: never. TAPECORE has no trap (60_exceptions.md R237) and "Nothing in the
per-block processing path is permitted to fail loudly" (R240); a rejected command is a next state with the record
written. The type has no constructor. -/
inductive Fault
deriving DecidableEq, Repr

/-- Why a step could have no meaning. -/
inductive Refusal where
  /-- an arm of `exec` that gives its instruction no meaning yet; no arm raises it; safe (nothing can be proved of a
  run beyond it) -/
  | notModelled (mnemonic : String)
deriving DecidableEq, Repr

/-! ### Reset -/

/-- The model's named value for a biquad at reset (log 5). -/
def Biquad.zero : Biquad := ⟨⟨0#64, 0#64, 0#64, 0#64, 0#64⟩, ⟨⟨0#64, 0#64, 0#64, 0#64⟩, ⟨0#64, 0#64, 0#64, 0#64⟩⟩⟩

/-- The model's named value for the active configuration and the DSP registers at reset: all zero (log 5; the spec
gives none). -/
def Dsp.zero : Dsp :=
  { fs := 0#64, maxBlk := 0, nch := 0, len := 0, phaseInc := 0#64
    smooth := #v[⟨0#64, 0#64⟩, ⟨0#64, 0#64⟩, ⟨0#64, 0#64⟩, ⟨0#64, 0#64⟩, ⟨0#64, 0#64⟩, ⟨0#64, 0#64⟩, ⟨0#64, 0#64⟩]
    lcf := Biquad.zero, lsf := Biquad.zero, hsf := Biquad.zero, hcf := Biquad.zero
    sat := ⟨0#64, 0#64, 0#64, ⟨0#64, 0#64⟩⟩, wowPhase := 0#64, wowPtr := 0 }

/-- The machine right after hardware reset (10_state.md R42, 70_reset_and_hazards.md R261), with no transaction
waiting and nothing scheduled. -/
def State.reset : State :=
  { lc := .unprepared
    ctx := ⟨0, 0, .start, false⟩
    cfgErr := false, seqErr := false, errCode := 0#4
    cfgFsLo := 0#32, cfgFsHi := 0#32, cfgMaxBlk := 0#32, cfgNch := 0#32, numSamp := 0#32
    holder := Config.default
    dsp := Dsp.zero
    blk := ⟨[], []⟩, dl := ⟨[], []⟩
    portA := [], portC := [], schedule := []
    replyA := 0#32, replyC := 0#32, wire := .none, free := 0 }

end Sys2Proof.Machine
end

