-- ==== Sys2Proof/Machine/Ops.lean ====
section
/-! DEFINITION. The named operations over memory and registers, and the one operation of error entry (60_exceptions.md
R237) with its clearing (R238) beside it. -/
namespace Sys2Proof.Machine

/-! ### Memory (00_scope.md R11, 20_memory.md R50)

A memory is a list of (index, value) pairs, indices strictly rising, and no value equal to what an unlisted element
reads as. The same list serves `BLK` (binary32) and `DL` (binary64). -/

/-- What an unlisted element reads as: `0x00000000` in `BLK` (log 7), `+0.0` in `DL` (log 8). -/
def Memory.default (w : Nat) : BitVec w := 0#w

/-- `MemRead`. -/
def Memory.read {w : Nat} : Memory w → Nat → BitVec w
  | [], _ => Memory.default w
  | (b, v) :: rest, a => if a = b then v else Memory.read rest a

/-- `rest` with the element `a` in front, unless its value is what an unlisted element reads as. -/
def Memory.cons {w : Nat} (a : Nat) (v : BitVec w) (rest : Memory w) : Memory w :=
  if v = Memory.default w then rest else (a, v) :: rest

/-- `MemWrite`, keeping the canonical form. -/
def Memory.write {w : Nat} : Memory w → Nat → BitVec w → Memory w
  | [], a, v => Memory.cons a v []
  | (b, u) :: rest, a, v =>
    if a < b then Memory.cons a v ((b, u) :: rest)
    else if a = b then Memory.cons a v rest
    else (b, u) :: Memory.write rest a v

/-- Elements `0 .. n-1` set to what an unlisted element reads as (44_wow.md R153 line 5: `+0.0`); the others stay. -/
def Memory.clearBelow {w : Nat} (n : Nat) (m : Memory w) : Memory w := m.filter fun e => decide (n ≤ e.1)

/-- The memory of depth `depth` that holds the listed values, a later one replacing an earlier; indices beyond the
depth are dropped. -/
def Memory.ofCells {w : Nat} (depth : Nat) (cells : List (Nat × BitVec w)) : Memory w :=
  (cells.filter fun e => decide (e.1 < depth)).foldl (fun m e => Memory.write m e.1 e.2) []

/-- Every index is above `a`. -/
def Memory.allAbove {w : Nat} (a : Nat) (m : Memory w) : Bool := m.all fun e => decide (a < e.1)

/-- The canonical form: indices strictly rising, no entry equal to what an unlisted element reads as. -/
def Memory.wf {w : Nat} : Memory w → Bool
  | [] => true
  | (a, v) :: rest => decide (v ≠ Memory.default w) && Memory.allAbove a rest && Memory.wf rest

/-- Every listed index is one of the memory's `depth` elements. -/
def Memory.within {w : Nat} (depth : Nat) (m : Memory w) : Bool := m.all fun e => decide (e.1 < depth)

/-! ### Channel banks (10_state.md R41) -/

def Pair.get {α : Type} (p : Pair α) : Chan → α
  | .c0 => p.c0
  | .c1 => p.c1

def Pair.set {α : Type} (p : Pair α) (c : Chan) (v : α) : Pair α :=
  match c with
  | .c0 => { p with c0 := v }
  | .c1 => { p with c1 := v }

/-- The channels `0 .. nch - 1`, channel 0 first (45_signal_chain.md R175 line 6). There are two banks (R41). -/
def channels (nch : Nat) : List Chan := [Chan.c0, Chan.c1].take nch

/-! ### Registers -/

/-- The biquad instance `F` (R33). -/
def Dsp.filter (d : Dsp) : FilterId → Biquad
  | .lcf => d.lcf
  | .lsf => d.lsf
  | .hsf => d.hsf
  | .hcf => d.hcf

def Dsp.setFilter (d : Dsp) (F : FilterId) (b : Biquad) : Dsp :=
  match F with
  | .lcf => { d with lcf := b }
  | .lsf => { d with lsf := b }
  | .hsf => { d with hsf := b }
  | .hcf => { d with hcf := b }

/-- `F.(b0,b1,b2,a1,a2) <- k`. -/
def State.setCoefs (s : State) (F : FilterId) (k : Coefs) : State :=
  { s with dsp := s.dsp.setFilter F { s.dsp.filter F with k := k } }

/-- `F.h[c] <- h`. -/
def State.setHist (s : State) (F : FilterId) (c : Chan) (h : Hist) : State :=
  { s with dsp := s.dsp.setFilter F { s.dsp.filter F with h := (s.dsp.filter F).h.set c h } }

/-- `S[p] <- v`. -/
def State.setSmoother (s : State) (p : Fin 7) (v : Smoother) : State :=
  { s with dsp := { s.dsp with smooth := s.dsp.smooth.set p v } }

/-- `SAT <- v`. -/
def State.setSat (s : State) (v : Saturation) : State := { s with dsp := { s.dsp with sat := v } }

/-- `H[id] <- w` (10_state.md R30: all 32 bits at once). -/
def State.setHolder (s : State) (id : Fin 8) (w : Word) : State := { s with holder := s.holder.set id w }

/-- `BLK[c][i]`. -/
def State.readBlk (s : State) (c : Chan) (i : Nat) : Word := Memory.read (s.blk.get c) i
/-- `BLK[c][i] <- w`. -/
def State.writeBlk (s : State) (c : Chan) (i : Nat) (w : Word) : State :=
  { s with blk := s.blk.set c (Memory.write (s.blk.get c) i w) }
/-- `DL[c][k]`. -/
def State.readDl (s : State) (c : Chan) (k : Nat) : F64 := Memory.read (s.dl.get c) k
/-- `DL[c][k] <- v`. -/
def State.writeDl (s : State) (c : Chan) (k : Nat) (v : F64) : State :=
  { s with dl := s.dl.set c (Memory.write (s.dl.get c) k v) }

/-- The word a port A read returns to the audio host (30_encoding.md R70). -/
def State.answerA (s : State) (w : Word) : State := { s with replyA := w }
/-- The word a port C read returns to the control host. -/
def State.answerC (s : State) (w : Word) : State := { s with replyC := w }
/-- What an internal operation executed on its own answers (log 18). -/
def State.answer (s : State) (v : Wire) : State := { s with wire := v }

/-! ### Loss of value (10_state.md R42) -/

/-- The active configuration, the DSP registers and the delay memories "hold no value" any more: each is free
(log 9). The delay memories keep their canonical form. -/
def State.loseDsp (s : State) : State :=
  { s with
    dsp := Config.noValue s.free
    dl := ⟨Memory.ofCells Config.dlMax (Config.noValue s.free : Pair (List (Nat × F64))).c0,
           Memory.ofCells Config.dlMax (Config.noValue s.free : Pair (List (Nat × F64))).c1⟩
    free := s.free + 1 }

/-- The block context "loses its meaning" (45_signal_chain.md R178): it is free (log 10). -/
def State.loseCtx (s : State) : State := { s with ctx := Config.noValue s.free, free := s.free + 1 }

/-! ### Error entry and clearing (60_exceptions.md R231, R237, R238) -/

/-- The six errors (R231). -/
inductive ErrorKind | cfgBadFs | cfgBadBlock | cfgBadNch | seqNotPrepared | seqBadNumSamp | illegalCmd
deriving DecidableEq, Repr

/-- The value placed in `STATUS.ERRCODE` (R231). -/
def errorCode : ErrorKind → BitVec 4
  | .cfgBadFs => 1#4
  | .cfgBadBlock => 2#4
  | .cfgBadNch => 3#4
  | .seqNotPrepared => 4#4
  | .seqBadNumSamp => 5#4
  | .illegalCmd => 6#4

/-- Codes 1 to 3. -/
def isConfigError : ErrorKind → Bool
  | .cfgBadFs | .cfgBadBlock | .cfgBadNch => true
  | .seqNotPrepared | .seqBadNumSamp | .illegalCmd => false

/-- Error entry, `raise Err(code)` (R237): the code is recorded; a configuration error sets `CFG_ERR`, makes the core
`UNPREPARED` and takes its value from the DSP state (46_host_commands.md R196, `fail`); a sequence error sets
`SEQ_ERR`. Nothing is saved and nothing else is written. -/
def raiseError (e : ErrorKind) (s : State) : State :=
  if isConfigError e then { s.loseDsp with errCode := errorCode e, cfgErr := true, lc := .unprepared }
  else { s with errCode := errorCode e, seqErr := true }

/-- Clearing the record: what a successful PREPARE does (R238; 46_host_commands.md R196 line 12). -/
def clearErrors (s : State) : State := { s with errCode := 0#4, cfgErr := false, seqErr := false }

/-! ### Acceptance on port A (20_memory.md R58) -/

/-- A port A transaction other than RD.STATUS has its effect only while `lc != BUSY`; issued while `BUSY` it is held,
and none of its effect happens. (`Machine.step` keeps a held transaction at the port; log 3.) -/
def whenAccepted (s : State) (effect : State) : Host.Outcome State Fault Refusal :=
  if s.lc = .busy then .next s else .next effect

end Sys2Proof.Machine
end

