-- ==== Sys2Proof/Machine/Operands.lean ====
section
/-! DEFINITION. Operand assembly (30_encoding.md R76, R77): how the words of the configuration registers are read as
the arguments of PREPARE and PROCESS, and the write path shared by the eight SETPARAM operations
(46_host_commands.md R205). -/
namespace Sys2Proof.Machine

/-- `CFG_FS_HI ++ CFG_FS_LO`, a binary64 pattern (10_state.md R27; 46_host_commands.md R196 line 1). -/
def argFs (s : State) : F64 := s.cfgFsHi ++ s.cfgFsLo

/-- `sext_32(CFG_MAXBLK)` (R196 line 2). -/
def argMaxBlk (s : State) : Int := s.cfgMaxBlk.toInt

/-- `sext_32(CFG_NCH)` (R196 line 2). -/
def argNch (s : State) : Int := s.cfgNch.toInt

/-- `sext_32(NUMSAMP)` (R199 line 2). -/
def argNumSamp (s : State) : Int := s.numSamp.toInt

/-- The index of parameter `id` among the eight holders (30_encoding.md R76: every value of the field is used). -/
def holderIndex (id : BitVec 3) : Fin 8 := id.toFin

/-- The value SETCLAMP stores for a `v` that is not NaN, all comparisons in binary32 (R205 lines 2 to 6). -/
def clampedValue (id : Fin 8) (v : Word) : Word :=
  if id = 7 then (if fge32 v Config.bypassThreshold then 0x3F800000#32 else 0x00000000#32)
  else if flt32 v Config.lo[id] then Config.lo[id]
  else if flt32 Config.hi[id] v then Config.hi[id]
  else v

/-- SETCLAMP(id, w) (R205). A NaN is dropped. -/
def setClamp (id : Fin 8) (w : Word) (s : State) : State :=
  if isNaN32 w then s else s.setHolder id (clampedValue id w)

end Sys2Proof.Machine
end

