-- ==== Sys2Proof/Machine/Filter.lean ====
section
/-! DEFINITION. ResonantFilter (41_resonant_filter.md): the coefficient computation with its clamps and fallback, the
per-sample recurrence, the reset. BQ.NORM, BQ.CHECK and BQ.STEP serve the two shelves of 43_tone.md too. The order
of the floating-point operations is the rules' (R102: it is normative). -/
namespace Sys2Proof.Machine

/-! ### Coefficients -/

/-- The frequency part of BQ.CLAMP (R103 lines 1 to 3). -/
def clampFreq (fs f : F64) : F64 :=
  let f1 := if fgt f Config.fMinHz then f else Config.fMinHz
  let top := fmul Config.fNyqFrac fs
  if flt f1 top then f1 else top

/-- The Q part of BQ.CLAMP (R103 line 4). -/
def clampQ (q : F64) : F64 := clamp q Config.qMin Config.qMax

/-- `w0 = (2π * f') / fs` (R104 line 1, R138 line 3). -/
def angleOf (fs f : F64) : F64 := fdiv (fmul Config.twoPi f) fs

/-- `alpha = sw / (2.0 * q')` (R104 line 4). -/
def alphaOf (sw q : F64) : F64 := fdiv sw (fmul two q)

/-- BQ.COEF.LP (R104), of clamped operands. -/
def coefLp (num : Config.Numerics) (fs f q : F64) : RawSet :=
  let w0 := angleOf fs f
  let cw := num.cos w0
  let sw := num.sin w0
  let alpha := alphaOf sw q
  let b1r := fsub one cw
  { b0 := fdiv b1r two, b1 := b1r, b2 := fdiv b1r two
    a0 := fadd one alpha, a1 := fmul negTwo cw, a2 := fsub one alpha }

/-- BQ.COEF.HP (R105). -/
def coefHp (num : Config.Numerics) (fs f q : F64) : RawSet :=
  let w0 := angleOf fs f
  let cw := num.cos w0
  let sw := num.sin w0
  let alpha := alphaOf sw q
  let t := fadd one cw
  { b0 := fdiv t two, b1 := fneg t, b2 := fdiv t two
    a0 := fadd one alpha, a1 := fmul negTwo cw, a2 := fsub one alpha }

/-- BQ.NORM (R106): five separate divisions by `a0`. -/
def normalise (r : RawSet) : Coefs :=
  { b0 := fdiv r.b0 r.a0, b1 := fdiv r.b1 r.a0, b2 := fdiv r.b2 r.a0, a1 := fdiv r.a1 r.a0, a2 := fdiv r.a2 r.a0 }

/-- The unity-pass set (R107). -/
def unityPass : Coefs := ⟨one, posZero, posZero, posZero, posZero⟩

/-- All five coefficients are finite. -/
def Coefs.finite (k : Coefs) : Bool :=
  Machine.finite k.b0 && Machine.finite k.b1 && Machine.finite k.b2 && Machine.finite k.a1 && Machine.finite k.a2

/-- BQ.CHECK (R107): a set with a non-finite member is replaced by the unity-pass set. -/
def checked (k : Coefs) : Coefs := if Coefs.finite k then k else unityPass

/-! ### The recurrence -/

/-- The sum of BQ.STEP (R108 line 1), left to right. -/
def biquadSum (k : Coefs) (h : Hist) (x : F64) : F64 :=
  fsub (fsub (fadd (fadd (fmul k.b0 x) (fmul k.b1 h.x1)) (fmul k.b2 h.x2)) (fmul k.a1 h.y1)) (fmul k.a2 h.y2)

/-- The output of BQ.STEP (R108 line 2). -/
def biquadOut (k : Coefs) (h : Hist) (x : F64) : F64 := cond (biquadSum k h x)

/-- The history after BQ.STEP (R108 lines 3 and 4). -/
def Hist.push (h : Hist) (x y : F64) : Hist := ⟨x, h.x1, y, h.y1⟩

/-- What BQ.STEP(F, c, x) returns. -/
def bqOut (F : FilterId) (c : Chan) (x : F64) (s : State) : F64 :=
  biquadOut (s.dsp.filter F).k ((s.dsp.filter F).h.get c) x

/-- BQ.STEP(F, c, x) (R108): the history of channel `c` shifts. -/
def bqStep (F : FilterId) (c : Chan) (x : F64) (s : State) : State :=
  s.setHist F c (((s.dsp.filter F).h.get c).push x (bqOut F c x s))

/-! ### Reset -/

/-- A history of zeros. -/
def Hist.zero : Hist := ⟨posZero, posZero, posZero, posZero⟩

/-- A biquad after BQ.RESET (R109). -/
def Biquad.resetValue : Biquad := ⟨unityPass, ⟨Hist.zero, Hist.zero⟩⟩

/-- BQ.RESET(F) (R109). -/
def bqReset (F : FilterId) (s : State) : State := { s with dsp := s.dsp.setFilter F Biquad.resetValue }

/-! ### The rows of the opcode table -/

/-- BQ.CLAMP(f, q), answering `(f', q')`. -/
def execBqClamp (f q : F64) (s : State) : Host.Outcome State Fault Refusal :=
  .next (s.answer (.pair (clampFreq s.dsp.fs f) (clampQ q)))

/-- BQ.COEF.LP(f', q'), answering the raw set. -/
def execBqCoefLp (f q : F64) (s : State) : Host.Outcome State Fault Refusal :=
  .next (s.answer (.raw (coefLp hardwareNum s.dsp.fs f q)))

/-- BQ.COEF.HP(f', q'), answering the raw set. -/
def execBqCoefHp (f q : F64) (s : State) : Host.Outcome State Fault Refusal :=
  .next (s.answer (.raw (coefHp hardwareNum s.dsp.fs f q)))

/-- BQ.NORM, answering the normalised set. -/
def execBqNorm (raw : RawSet) (s : State) : Host.Outcome State Fault Refusal :=
  .next (s.answer (.coefs (normalise raw)))

/-- BQ.CHECK: the instance's five coefficient registers are written, and nothing else. -/
def execBqCheck (F : FilterId) (k : Coefs) (s : State) : Host.Outcome State Fault Refusal :=
  .next (s.setCoefs F (checked k))

/-- BQ.STEP(F, c, x), answering `y`. -/
def execBqStep (F : FilterId) (c : Chan) (x : F64) (s : State) : Host.Outcome State Fault Refusal :=
  .next ((bqStep F c x s).answer (.real (bqOut F c x s)))

/-- BQ.RESET(F). -/
def execBqReset (F : FilterId) (s : State) : Host.Outcome State Fault Refusal := .next (bqReset F s)

end Sys2Proof.Machine
end

