-- ==== Sys2Proof/Machine/Saturate.lean ====
section
/-! DEFINITION. TapeSaturation (42_saturation.md): the block-rate setter, the per-sample step with its flushes, the
reset. -/
namespace Sys2Proof.Machine

/-! ### SAT.SET (R122) -/

/-- Drive as SAT.SET uses it (line 1). -/
def driveOf (drv : F64) : F64 := clamp drv posZero one

/-- `SAT.g` (line 2): `1 + 9 * drive`. -/
def satGain (drv : F64) : F64 := fadd one (fmul Config.driveSpan (driveOf drv))

/-- The roll-off corner (lines 4 to 6). -/
def satCorner (fs drv : F64) : F64 :=
  let fc := fsub Config.satFcHi (fmul (fsub Config.satFcHi Config.satFcLo) (driveOf drv))
  let top := fmul Config.fNyqFrac fs
  if flt fc top then fc else top

/-- `SAT.alp` (line 7). -/
def satAlpha (num : Config.Numerics) (fs drv : F64) : F64 :=
  fsub one (num.exp (fneg (fdiv (fmul Config.twoPi (satCorner fs drv)) fs)))

/-- SAT.SET(drv): the three held values are written; the history stays. -/
def satSet (num : Config.Numerics) (drv : F64) (s : State) : State :=
  s.setSat { s.dsp.sat with
    g := satGain drv, norm := num.tanh (satGain drv), alp := satAlpha num s.dsp.fs drv }

/-! ### SAT.STEP (R124) -/

/-- The waveshaper (lines 1 to 5). -/
def waveshape (num : Config.Numerics) (g norm x : F64) : F64 :=
  let v := flush (num.tanh (flush (fmul x g)))
  if fgt g Config.satEps then flush (fdiv v norm) else v

/-- The one-pole low-pass (lines 7 to 10). -/
def onePole (alp lp v : F64) : F64 := cond (flush (fadd lp (flush (fmul alp (flush (fsub v lp))))))

/-- What SAT.STEP(c, x) returns. -/
def satOut (num : Config.Numerics) (c : Chan) (x : F64) (s : State) : F64 :=
  onePole s.dsp.sat.alp (s.dsp.sat.lp.get c) (waveshape num s.dsp.sat.g s.dsp.sat.norm x)

/-- SAT.STEP(c, x): the output is the new history of channel `c` (line 11). -/
def satStep (num : Config.Numerics) (c : Chan) (x : F64) (s : State) : State :=
  s.setSat { s.dsp.sat with lp := s.dsp.sat.lp.set c (satOut num c x s) }

/-! ### SAT.RESET (R126) -/

/-- The saturation registers after SAT.RESET. -/
def Saturation.resetValue : Saturation := ⟨one, one, one, ⟨posZero, posZero⟩⟩

/-- SAT.RESET. -/
def satReset (s : State) : State := s.setSat Saturation.resetValue

/-! ### The rows of the opcode table -/

/-- SAT.SET(drv). -/
def execSatSet (drv : F64) (s : State) : Host.Outcome State Fault Refusal := .next (satSet hardwareNum drv s)

/-- SAT.STEP(c, x), answering `y`. -/
def execSatStep (c : Chan) (x : F64) (s : State) : Host.Outcome State Fault Refusal :=
  .next ((satStep hardwareNum c x s).answer (.real (satOut hardwareNum c x s)))

/-- SAT.RESET. -/
def execSatReset (s : State) : Host.Outcome State Fault Refusal := .next (satReset s)

end Sys2Proof.Machine
end

