-- ==== Sys2Proof/Machine/Smoother.lean ====
section
/-! DEFINITION. ParameterSmoother (40_smoother.md): the three smoother operations. Each operation is first a shared
definition, which PREPARE and FRAME call too, and then the meaning of its own row of the opcode table. -/
namespace Sys2Proof.Machine

/-- The holder that is smoother `p`'s target (40_smoother.md R92 line 1; 10_state.md R32). -/
def targetIndex (p : Fin 7) : Fin 8 := p.castSucc

/-- SMOOTH.COEF (R91 lines 1 to 4): `1 - exp(-(1 / (T[p] * fs)))`. -/
def smoothCoefValue (num : Config.Numerics) (fs : F64) (p : Fin 7) : F64 :=
  fsub one (num.exp (fneg (fdiv one (fmul Config.timeConstant[p] fs))))

def smoothCoef (num : Config.Numerics) (p : Fin 7) (s : State) : State :=
  s.setSmoother p { s.dsp.smooth[p] with coeff := smoothCoefValue num s.dsp.fs p }

/-- SMOOTH.TICK (R92 line 2): `cur + ((tgt - cur) * coeff)`. -/
def tickValue (tgt : F64) (m : Smoother) : F64 := fadd m.cur (fmul (fsub tgt m.cur) m.coeff)

def smoothTick (p : Fin 7) (s : State) : State :=
  s.setSmoother p { s.dsp.smooth[p] with cur := tickValue (widen32 s.holder[targetIndex p]) s.dsp.smooth[p] }

/-- SMOOTH.SNAP (R93): `cur <- widen32(H[p])`. -/
def smoothSnap (p : Fin 7) (s : State) : State :=
  s.setSmoother p { s.dsp.smooth[p] with cur := widen32 s.holder[targetIndex p] }

/-- The smoothers 0 to 6. -/
def smootherIds : List (Fin 7) := [0, 1, 2, 3, 4, 5, 6]

/-- SMOOTH.COEF(p). -/
def execSmoothCoef (p : Fin 7) (s : State) : Host.Outcome State Fault Refusal := .next (smoothCoef hardwareNum p s)

/-- SMOOTH.TICK(p), answering the new `S[p].cur`. -/
def execSmoothTick (p : Fin 7) (s : State) : Host.Outcome State Fault Refusal :=
  .next ((smoothTick p s).answer (.real (smoothTick p s).dsp.smooth[p].cur))

/-- SMOOTH.SNAP(p). -/
def execSmoothSnap (p : Fin 7) (s : State) : Host.Outcome State Fault Refusal := .next (smoothSnap p s)

end Sys2Proof.Machine
end

