-- ==== Sys2Proof/Machine/Tone.lean ====
section
/-! DEFINITION. ToneControl (43_tone.md): the shelving pair. The shelves are stepped by BQ.STEP (R142) and never
skipped (R143). -/
namespace Sys2Proof.Machine

/-- SHELF.PRE(f, gainDb) (R138): the part the two shelves share. -/
def shelfPre (num : Config.Numerics) (fs f gainDb : F64) : ShelfPre :=
  let f' := clampFreq fs f
  let A := num.pow10 (fdiv gainDb forty)
  let w0 := angleOf fs f'
  let cw := num.cos w0
  let sw := num.sin w0
  let alpha := alphaOf sw Config.qButterworth
  let ap1 := fadd A one
  let am1 := fsub A one
  { f := f', A := A, w0 := w0, cw := cw, sw := sw, alpha := alpha
    beta := fmul (fmul two (fsqrt A)) alpha
    ap1 := ap1, am1 := am1
    m := fsub ap1 (fmul am1 cw), p := fadd ap1 (fmul am1 cw) }

/-- The raw low-shelf set (R139) after the lines of SHELF.PRE. -/
def lowShelfRaw (e : ShelfPre) : RawSet :=
  { b0 := fmul e.A (fadd e.m e.beta)
    b1 := fmul (fmul two e.A) (fsub e.am1 (fmul e.ap1 e.cw))
    b2 := fmul e.A (fsub e.m e.beta)
    a0 := fadd e.p e.beta
    a1 := fmul negTwo (fadd e.am1 (fmul e.ap1 e.cw))
    a2 := fsub e.p e.beta }

/-- The raw high-shelf set (R140) after the lines of SHELF.PRE. -/
def highShelfRaw (e : ShelfPre) : RawSet :=
  { b0 := fmul e.A (fadd e.p e.beta)
    b1 := fmul (fmul negTwo e.A) (fadd e.am1 (fmul e.ap1 e.cw))
    b2 := fmul e.A (fsub e.p e.beta)
    a0 := fadd e.m e.beta
    a1 := fmul two (fsub e.am1 (fmul e.ap1 e.cw))
    a2 := fsub e.m e.beta }

/-- SHELF.COEF.LO(f, gainDb) (R139). -/
def shelfLo (num : Config.Numerics) (fs f gainDb : F64) : RawSet := lowShelfRaw (shelfPre num fs f gainDb)

/-- SHELF.COEF.HI(f, gainDb) (R140). -/
def shelfHi (num : Config.Numerics) (fs f gainDb : F64) : RawSet := highShelfRaw (shelfPre num fs f gainDb)

/-- `gainDb` (R137 lines 1 and 2). -/
def toneGainDb (tone : F64) : F64 := fmul (clamp tone negOne one) Config.toneDbSpan

/-- The low shelf's set for a tone value (R137 line 3). -/
def lowShelfSet (num : Config.Numerics) (fs tone : F64) : Coefs :=
  checked (normalise (shelfLo num fs Config.lowShelfHz (toneGainDb tone)))

/-- The high shelf's set for a tone value (R137 line 4): the gain is the exact negative. -/
def highShelfSet (num : Config.Numerics) (fs tone : F64) : Coefs :=
  checked (normalise (shelfHi num fs Config.highShelfHz (fneg (toneGainDb tone))))

/-- TONE.SET(tone) (R137): the coefficient registers of both shelves are written. -/
def toneSet (num : Config.Numerics) (tone : F64) (s : State) : State :=
  (s.setCoefs .lsf (lowShelfSet num s.dsp.fs tone)).setCoefs .hsf (highShelfSet num s.dsp.fs tone)

/-! ### The rows of the opcode table -/

/-- TONE.SET(tone). -/
def execToneSet (tone : F64) (s : State) : Host.Outcome State Fault Refusal := .next (toneSet hardwareNum tone s)

/-- SHELF.PRE(f, gainDb), answering its lines' values. -/
def execShelfPre (f gainDb : F64) (s : State) : Host.Outcome State Fault Refusal :=
  .next (s.answer (.shelf (shelfPre hardwareNum s.dsp.fs f gainDb)))

/-- SHELF.COEF.LO(f, gainDb), answering the raw set. -/
def execShelfCoefLo (f gainDb : F64) (s : State) : Host.Outcome State Fault Refusal :=
  .next (s.answer (.raw (shelfLo hardwareNum s.dsp.fs f gainDb)))

/-- SHELF.COEF.HI(f, gainDb), answering the raw set. -/
def execShelfCoefHi (f gainDb : F64) (s : State) : Host.Outcome State Fault Refusal :=
  .next (s.answer (.raw (shelfHi hardwareNum s.dsp.fs f gainDb)))

end Sys2Proof.Machine
end

