-- ==== Sys2Proof/Machine/Wow.lean ====
section
/-! DEFINITION. WowEngine (44_wow.md): the values PREPARE derives, the oscillator, the delay computation, the
interpolated read, the write and the pointer's advance. -/
namespace Sys2Proof.Machine

/-! ### PREPARE's part (R151 to R153) -/

/-- `phaseInc` (R151): `(2π * 0.5) / fs`. -/
def phaseIncOf (fs : F64) : F64 := fdiv (fmul Config.twoPi Config.lfoHz) fs

/-- `L` (R152): `ceil((50.0 * fs) / 1000.0) + 1`. -/
def lineLength (fs : F64) : Nat := (ceilF64 (fdiv (fmul Config.bufCapMs fs) thousand) + 1).toNat

/-- WOW.INIT (R153). Elements `L` and above of the delay memories are not written (20_memory.md R65). -/
def wowInit (s : State) : State :=
  { s with
    dsp := { s.dsp with
      phaseInc := phaseIncOf s.dsp.fs, len := lineLength s.dsp.fs, wowPhase := Config.lfoPhase0, wowPtr := 0 }
    dl := ⟨Memory.clearBelow (lineLength s.dsp.fs) s.dl.c0, Memory.clearBelow (lineLength s.dsp.fs) s.dl.c1⟩ }

/-! ### The oscillator (R154) -/

/-- The phase after one frame (lines 2 and 3). -/
def nextPhase (phase inc : F64) : F64 :=
  let q := fadd phase inc
  if fge q Config.twoPi then fsub q Config.twoPi else q

/-- What WOW.LFO returns: the sine of the phase before the advance (line 1). -/
def lfoOut (num : Config.Numerics) (s : State) : F64 := num.sin s.dsp.wowPhase

/-- WOW.LFO's write of the phase. -/
def wowLfo (s : State) : State := { s with dsp := { s.dsp with wowPhase := nextPhase s.dsp.wowPhase s.dsp.phaseInc } }

/-! ### The delay (R155) -/

/-- The delay in milliseconds (lines 1 to 3). -/
def delayMs (cur0 lfo : F64) : F64 :=
  let depth := clamp cur0 posZero one
  clamp (fadd Config.baseDelayMs (fmul (fmul lfo depth) Config.maxModMs)) posZero Config.bufCapMs

/-- The delay in samples (lines 4 to 6). -/
def delaySamples (fs : F64) (len : Nat) (dms : F64) : F64 :=
  let d := fdiv (fmul dms fs) thousand
  let d := if flt d Config.dMinSamples then Config.dMinSamples else d
  if fgt d (floatOf ((len : Int) - 1)) then floatOf ((len : Int) - 1) else d

/-- The integer part and the fraction (lines 7 and 8). -/
def splitDelay (d : F64) : Nat × F64 := ((floorF64 d).toNat, fsub d (floatOf (floorF64 d)))

/-- What WOW.DELAY(lfo) returns. -/
def wowDelay (lfo : F64) (s : State) : Nat × F64 :=
  splitDelay (delaySamples s.dsp.fs s.dsp.len (delayMs s.dsp.smooth[0].cur lfo))

/-! ### The delay line (R156 to R159) -/

/-- `(wp - k) mod L`, the mathematical remainder (R157 lines 1 and 2). -/
def tapIndex (wp len k : Nat) : Nat := (((wp : Int) - (k : Int)) % (len : Int)).toNat

/-- The interpolation (R157 line 5): `cond(a + (frac * (b - a)))`. -/
def interpolate (a b frac : F64) : F64 := cond (fadd a (fmul frac (fsub b a)))

/-- What WOW.READ(c, i, frac) returns. -/
def wowRead (c : Chan) (i : Nat) (frac : F64) (s : State) : F64 :=
  interpolate (s.readDl c (tapIndex s.dsp.wowPtr s.dsp.len i)) (s.readDl c (tapIndex s.dsp.wowPtr s.dsp.len (i + 1)))
    frac

/-- WOW.WRITE(c, x) (R158). -/
def wowWrite (c : Chan) (x : F64) (s : State) : State := s.writeDl c s.dsp.wowPtr x

/-- WOW.ADVANCE (R159). -/
def wowAdvance (s : State) : State := { s with dsp := { s.dsp with wowPtr := (s.dsp.wowPtr + 1) % s.dsp.len } }

/-! ### The rows of the opcode table -/

/-- WOW.INIT. -/
def execWowInit (s : State) : Host.Outcome State Fault Refusal := .next (wowInit s)

/-- WOW.LFO, answering `lfo`. -/
def execWowLfo (s : State) : Host.Outcome State Fault Refusal := .next ((wowLfo s).answer (.real (lfoOut hardwareNum s)))

/-- WOW.DELAY(lfo), answering `(i, frac)`. -/
def execWowDelay (lfo : F64) (s : State) : Host.Outcome State Fault Refusal :=
  .next (s.answer (.delay (wowDelay lfo s).1 (wowDelay lfo s).2))

/-- WOW.STEP(c, x, i, frac), answering `y`: the read, then the write (R156). -/
def execWowStep (c : Chan) (x : F64) (i : Nat) (frac : F64) (s : State) : Host.Outcome State Fault Refusal :=
  .next ((wowWrite c x s).answer (.real (wowRead c i frac s)))

/-- WOW.READ(c, i, frac), answering `y`. -/
def execWowRead (c : Chan) (i : Nat) (frac : F64) (s : State) : Host.Outcome State Fault Refusal :=
  .next (s.answer (.real (wowRead c i frac s)))

/-- WOW.WRITE(c, x). -/
def execWowWrite (c : Chan) (x : F64) (s : State) : Host.Outcome State Fault Refusal := .next (wowWrite c x s)

/-- WOW.ADVANCE. -/
def execWowAdvance (s : State) : Host.Outcome State Fault Refusal := .next (wowAdvance s)

end Sys2Proof.Machine
end

