-- ==== Sys2Proof/Machine/Chain.lean ====
section
/-! DEFINITION. SignalChain (45_signal_chain.md): the sequencer's three steps and the conditioning operations at the
chain's two ends. -/
namespace Sys2Proof.Machine

/-! ### Conditioning (R180, R181) -/

/-- IN.COND(w): `cond(widen32(w))`. -/
def inCond (w : Word) : F64 := cond (widen32 w)

/-- OUT.COND(x): `round32(x)`, and `+0.0f` where that is NaN or infinite. -/
def outCond (x : F64) : Word := sanitize32 (round32 x)

/-! ### BLOCK_START (R172) -/

/-- `1.0f`, what `H[7]` holds when Bypass is on. -/
def bypassOn : Word := 0x3F800000#32

/-- The low-cut set (lines 6 and 7): a highpass from `S[1].cur`, `S[2].cur`. -/
def lowCutSet (num : Config.Numerics) (fs f q : F64) : Coefs :=
  checked (normalise (coefHp num fs (clampFreq fs f) (clampQ q)))

/-- The high-cut set (lines 8 and 9): a lowpass from `S[3].cur`, `S[4].cur`. -/
def highCutSet (num : Config.Numerics) (fs f q : F64) : Coefs :=
  checked (normalise (coefLp num fs (clampFreq fs f) (clampQ q)))

/-- Lines 6 to 11: every held coefficient from the smoothers' values at this instant. -/
def recompute (num : Config.Numerics) (s : State) : State :=
  toneSet num s.dsp.smooth[6].cur
    (satSet num s.dsp.smooth[5].cur
      ((s.setCoefs .lcf (lowCutSet num s.dsp.fs s.dsp.smooth[1].cur s.dsp.smooth[2].cur)).setCoefs .hcf
        (highCutSet num s.dsp.fs s.dsp.smooth[3].cur s.dsp.smooth[4].cur)))

/-- BLOCK_START. In a bypassed block nothing but the block context is written. -/
def blockStart (num : Config.Numerics) (s : State) : State :=
  if s.holder[7] = bypassOn then
    { s with ctx := { s.ctx with byp := true, frameIdx := 0, phase := .finish } }
  else
    { recompute num s with
      ctx := { s.ctx with byp := false, frameIdx := 0, phase := if 0 < s.ctx.nsamp then .frames else .finish } }

/-! ### FRAME (R175) -/

/-- Lines 7 to 14 for channel `c`: the fixed order low-cut, saturation, tone, high-cut, wow. -/
def frameChannel (num : Config.Numerics) (n i : Nat) (frac : F64) (c : Chan) (s : State) : State :=
  let x0 := inCond (s.readBlk c n)
  let x1 := bqOut .lcf c x0 s
  let s := bqStep .lcf c x0 s
  let x2 := satOut num c x1 s
  let s := satStep num c x1 s
  let x3 := bqOut .lsf c x2 s
  let s := bqStep .lsf c x2 s
  let x4 := bqOut .hsf c x3 s
  let s := bqStep .hsf c x3 s
  let x5 := bqOut .hcf c x4 s
  let s := bqStep .hcf c x4 s
  let x6 := wowRead c i frac s
  let s := wowWrite c x5 s
  s.writeBlk c n (outCond x6)

/-- Lines 2 and 3: all seven smoothers tick from one snapshot of the holders. -/
def tickAll (s : State) : State := smootherIds.foldl (fun s p => smoothTick p s) s

/-- Lines 6 to 15: the active channels, channel 0 first. -/
def frameChannels (num : Config.Numerics) (n i : Nat) (frac : F64) (s : State) : State :=
  (channels s.dsp.nch).foldl (fun s c => frameChannel num n i frac c s) s

/-- Lines 17 and 18. -/
def countFrame (s : State) : State :=
  { s with ctx := { s.ctx with
      frameIdx := s.ctx.frameIdx + 1
      phase := if s.ctx.frameIdx + 1 = s.ctx.nsamp then .finish else s.ctx.phase } }

/-- Lines 2 to 4: the ticks, then the oscillator's advance. -/
def beginFrame (s : State) : State := wowLfo (tickAll s)

/-- Lines 4 and 5: the delay of the frame, from the oscillator's value before its advance and the ticked depth. -/
def frameDelay (num : Config.Numerics) (s : State) : Nat × F64 := wowDelay (lfoOut num (tickAll s)) (beginFrame s)

/-- FRAME: one sample instant of every active channel. -/
def frame (num : Config.Numerics) (s : State) : State :=
  countFrame (wowAdvance
    (frameChannels num s.ctx.frameIdx (frameDelay num s).1 (frameDelay num s).2 (beginFrame s)))

/-! ### BLOCK_END (R178) -/

/-- BLOCK_END: `lc <- IDLE`, and the block context loses its meaning. -/
def blockEnd (s : State) : State := { s.loseCtx with lc := .idle }

/-! ### The rows of the opcode table

A sequencer step is taken only while it is enabled (R171); where it is not, nothing happens (log 19). -/

/-- BLOCK_START, enabled when `lc = BUSY` and `phase = START`. -/
def execBlockStart (s : State) : Host.Outcome State Fault Refusal :=
  if s.lc = .busy ∧ s.ctx.phase = .start then .next (blockStart hardwareNum s) else .next s

/-- FRAME, enabled when `lc = BUSY` and `phase = FRAMES`. -/
def execFrame (s : State) : Host.Outcome State Fault Refusal :=
  if s.lc = .busy ∧ s.ctx.phase = .frames then .next (frame hardwareNum s) else .next s

/-- BLOCK_END, enabled when `lc = BUSY` and `phase = END`. -/
def execBlockEnd (s : State) : Host.Outcome State Fault Refusal :=
  if s.lc = .busy ∧ s.ctx.phase = .finish then .next (blockEnd s) else .next s

/-- IN.COND(w), answering `x`. -/
def execInCond (w : Word) (s : State) : Host.Outcome State Fault Refusal := .next (s.answer (.real (inCond w)))

/-- OUT.COND(x), answering the word. -/
def execOutCond (x : F64) (s : State) : Host.Outcome State Fault Refusal := .next (s.answer (.word (outCond x)))

end Sys2Proof.Machine
end

