-- ==== Sys2Proof/Machine/Flags.lean ====
section
/-! DEFINITION. The flags of TAPECORE: the fields of `STATUS` (10_state.md R26). There are no arithmetic condition
codes and no floating-point exception flags (R39). -/
namespace Sys2Proof.Machine

/-- `STATUS.PREPARED`, bit 0: `lc != UNPREPARED`. -/
def preparedFlag (s : State) : Bool := decide (s.lc ≠ .unprepared)

/-- `STATUS.BUSY`, bit 1: `lc = BUSY`. -/
def busyFlag (s : State) : Bool := decide (s.lc = .busy)

/-- The word of `STATUS` (46_host_commands.md R203):
`zext_32(ERRCODE[3:0] ++ 0b0000 ++ SEQ_ERR ++ CFG_ERR ++ BUSY ++ PREPARED)`. -/
def statusWord (s : State) : Word :=
  0#20 ++ s.errCode ++ 0#4 ++ BitVec.ofBool s.seqErr ++ BitVec.ofBool s.cfgErr ++ BitVec.ofBool (busyFlag s)
    ++ BitVec.ofBool (preparedFlag s)

end Sys2Proof.Machine
end

