-- ==== Sys2Proof/Machine/HostOps.lean ====
section
/-! DEFINITION. The host operations (46_host_commands.md) and the illegal command (60_exceptions.md R235). A port A
operation other than RD.STATUS goes through `whenAccepted`: while `lc = BUSY` it is held (R190). -/
namespace Sys2Proof.Machine

/-! ### PREPARE (R196) -/

/-- Lines 6 to 12 of PREPARE for legal arguments. -/
def prepare (num : Config.Numerics) (fs : F64) (maxBlk nch : Nat) (s : State) : State :=
  let s := { s with dsp := { s.dsp with fs := fs, maxBlk := maxBlk, nch := nch } }
  let s := smootherIds.foldl (fun s p => smoothSnap p (smoothCoef num p s)) s
  let s := bqReset .hsf (bqReset .lsf (bqReset .hcf (bqReset .lcf s)))
  let s := satReset s
  let s := wowInit s
  clearErrors { s with lc := .idle }

/-- The test of line 3: `f >= FS_MIN and f <= FS_MAX`, false for NaN. -/
def legalFs (f : F64) : Bool := fge f Config.fsMin && fle f Config.fsMax

/-- The test of line 4. -/
def legalMaxBlk (m : Int) : Bool := decide (0 ≤ m) && decide (m ≤ (Config.blkMax : Int))

/-- The test of line 5. -/
def legalNch (k : Int) : Bool := decide (k = 1) || decide (k = 2)

/-- CMD.PREPARE as a step of the machine: the three tests in their order (R196, R233), then the preparation. -/
def commandPrepare (num : Config.Numerics) (s : State) : State :=
  if legalFs (argFs s) = false then raiseError .cfgBadFs s
  else if legalMaxBlk (argMaxBlk s) = false then raiseError .cfgBadBlock s
  else if legalNch (argNch s) = false then raiseError .cfgBadNch s
  else prepare num (argFs s) (argMaxBlk s).toNat (argNch s).toNat s

/-! ### PROCESS (R199) -/

/-- The test of line 3. -/
def legalNumSamp (n : Int) (maxBlk : Nat) : Bool := decide (0 ≤ n) && decide (n ≤ (maxBlk : Int))

/-- Lines 4 and 5: the block begins. `byp` is latched by BLOCK_START, not here. -/
def beginBlock (n : Nat) (s : State) : State :=
  { s with ctx := { s.ctx with nsamp := n, frameIdx := 0, phase := .start }, lc := .busy }

/-- CMD.PROCESS as a step of the machine. -/
def commandProcess (s : State) : State :=
  if s.lc = .unprepared then raiseError .seqNotPrepared s
  else if legalNumSamp (argNumSamp s) s.dsp.maxBlk = false then raiseError .seqBadNumSamp s
  else beginBlock (argNumSamp s).toNat s

/-! ### RELEASE (R202) -/

/-- CMD.RELEASE as a step of the machine: nothing happens in `UNPREPARED`. -/
def commandRelease (s : State) : State :=
  if s.lc = .unprepared then s else { s.loseDsp with lc := .unprepared }

/-! ### The rows of the opcode table -/

/-- CMD.PREPARE. -/
def execCmdPrepare (s : State) : Host.Outcome State Fault Refusal := whenAccepted s (commandPrepare hardwareNum s)
/-- CMD.PROCESS. -/
def execCmdProcess (s : State) : Host.Outcome State Fault Refusal := whenAccepted s (commandProcess s)
/-- CMD.RELEASE. -/
def execCmdRelease (s : State) : Host.Outcome State Fault Refusal := whenAccepted s (commandRelease s)
/-- ILLEGAL_CMD (60_exceptions.md R235): error entry with code 6, whatever the data. -/
def execIllegalCmd (_data : Word) (s : State) : Host.Outcome State Fault Refusal :=
  whenAccepted s (raiseError .illegalCmd s)

/-- WR.FS_LO (R191). -/
def execWrFsLo (data : Word) (s : State) : Host.Outcome State Fault Refusal := whenAccepted s { s with cfgFsLo := data }
/-- WR.FS_HI (R192). -/
def execWrFsHi (data : Word) (s : State) : Host.Outcome State Fault Refusal := whenAccepted s { s with cfgFsHi := data }
/-- WR.MAXBLK (R193). -/
def execWrMaxBlk (data : Word) (s : State) : Host.Outcome State Fault Refusal :=
  whenAccepted s { s with cfgMaxBlk := data }
/-- WR.NCH (R194). -/
def execWrNch (data : Word) (s : State) : Host.Outcome State Fault Refusal := whenAccepted s { s with cfgNch := data }
/-- WR.NUMSAMP (R195). -/
def execWrNumSamp (data : Word) (s : State) : Host.Outcome State Fault Refusal :=
  whenAccepted s { s with numSamp := data }

/-- RD.STATUS (R203), accepted in every `lc`. -/
def execRdStatus (s : State) : Host.Outcome State Fault Refusal := .next (s.answerA (statusWord s))
/-- RD.FS_LO (R215). -/
def execRdFsLo (s : State) : Host.Outcome State Fault Refusal := whenAccepted s (s.answerA s.cfgFsLo)
/-- RD.FS_HI (R216). -/
def execRdFsHi (s : State) : Host.Outcome State Fault Refusal := whenAccepted s (s.answerA s.cfgFsHi)
/-- RD.MAXBLK (R217). -/
def execRdMaxBlk (s : State) : Host.Outcome State Fault Refusal := whenAccepted s (s.answerA s.cfgMaxBlk)
/-- RD.NCH (R218). -/
def execRdNch (s : State) : Host.Outcome State Fault Refusal := whenAccepted s (s.answerA s.cfgNch)
/-- RD.NUMSAMP (R219). -/
def execRdNumSamp (s : State) : Host.Outcome State Fault Refusal := whenAccepted s (s.answerA s.numSamp)

/-- WR.BLK0 (R220). -/
def execWrBlk0 (idx : BitVec 13) (data : Word) (s : State) : Host.Outcome State Fault Refusal :=
  whenAccepted s (s.writeBlk .c0 idx.toNat data)
/-- WR.BLK1 (R221). -/
def execWrBlk1 (idx : BitVec 13) (data : Word) (s : State) : Host.Outcome State Fault Refusal :=
  whenAccepted s (s.writeBlk .c1 idx.toNat data)
/-- RD.BLK0 (R222). -/
def execRdBlk0 (idx : BitVec 13) (s : State) : Host.Outcome State Fault Refusal :=
  whenAccepted s (s.answerA (s.readBlk .c0 idx.toNat))
/-- RD.BLK1 (R223). -/
def execRdBlk1 (idx : BitVec 13) (s : State) : Host.Outcome State Fault Refusal :=
  whenAccepted s (s.answerA (s.readBlk .c1 idx.toNat))

/-- SETPARAM.WOWDEPTH (R206), accepted in every `lc` as every port C operation is (R204). -/
def execSetWowDepth (data : Word) (s : State) : Host.Outcome State Fault Refusal := .next (setClamp 0 data s)
/-- SETPARAM.LOWCUTFREQ (R207). -/
def execSetLowCutFreq (data : Word) (s : State) : Host.Outcome State Fault Refusal := .next (setClamp 1 data s)
/-- SETPARAM.LOWCUTQ (R208). -/
def execSetLowCutQ (data : Word) (s : State) : Host.Outcome State Fault Refusal := .next (setClamp 2 data s)
/-- SETPARAM.HIGHCUTFREQ (R209). -/
def execSetHighCutFreq (data : Word) (s : State) : Host.Outcome State Fault Refusal := .next (setClamp 3 data s)
/-- SETPARAM.HIGHCUTQ (R210). -/
def execSetHighCutQ (data : Word) (s : State) : Host.Outcome State Fault Refusal := .next (setClamp 4 data s)
/-- SETPARAM.DRIVE (R211). -/
def execSetDrive (data : Word) (s : State) : Host.Outcome State Fault Refusal := .next (setClamp 5 data s)
/-- SETPARAM.TONE (R212). -/
def execSetTone (data : Word) (s : State) : Host.Outcome State Fault Refusal := .next (setClamp 6 data s)
/-- SETPARAM.BYPASS (R213). -/
def execSetBypass (data : Word) (s : State) : Host.Outcome State Fault Refusal := .next (setClamp 7 data s)
/-- GETPARAM (R214). -/
def execGetParam (id : BitVec 3) (s : State) : Host.Outcome State Fault Refusal :=
  .next (s.answerC s.holder[holderIndex id])

end Sys2Proof.Machine
end

