-- ==== Sys2Proof/Machine/Dispatch.lean ====
section
/-! DEFINITION. The meaning of every instruction: one arm for each, one direct call. -/
namespace Sys2Proof.Machine

/-- One instruction executed on a state: the meaning the opcode table names for it. -/
def exec (i : Instr) (s : State) : Host.Outcome State Fault Refusal :=
  match i with
  | .cmdPrepare => Sys2Proof.Machine.execCmdPrepare s
  | .cmdProcess => Sys2Proof.Machine.execCmdProcess s
  | .cmdRelease => Sys2Proof.Machine.execCmdRelease s
  | .wrFsLo data => Sys2Proof.Machine.execWrFsLo data s
  | .wrFsHi data => Sys2Proof.Machine.execWrFsHi data s
  | .wrMaxBlk data => Sys2Proof.Machine.execWrMaxBlk data s
  | .wrNch data => Sys2Proof.Machine.execWrNch data s
  | .wrNumSamp data => Sys2Proof.Machine.execWrNumSamp data s
  | .rdStatus => Sys2Proof.Machine.execRdStatus s
  | .rdFsLo => Sys2Proof.Machine.execRdFsLo s
  | .rdFsHi => Sys2Proof.Machine.execRdFsHi s
  | .rdMaxBlk => Sys2Proof.Machine.execRdMaxBlk s
  | .rdNch => Sys2Proof.Machine.execRdNch s
  | .rdNumSamp => Sys2Proof.Machine.execRdNumSamp s
  | .wrBlk0 idx data => Sys2Proof.Machine.execWrBlk0 idx data s
  | .wrBlk1 idx data => Sys2Proof.Machine.execWrBlk1 idx data s
  | .rdBlk0 idx => Sys2Proof.Machine.execRdBlk0 idx s
  | .rdBlk1 idx => Sys2Proof.Machine.execRdBlk1 idx s
  | .setWowDepth data => Sys2Proof.Machine.execSetWowDepth data s
  | .setLowCutFreq data => Sys2Proof.Machine.execSetLowCutFreq data s
  | .setLowCutQ data => Sys2Proof.Machine.execSetLowCutQ data s
  | .setHighCutFreq data => Sys2Proof.Machine.execSetHighCutFreq data s
  | .setHighCutQ data => Sys2Proof.Machine.execSetHighCutQ data s
  | .setDrive data => Sys2Proof.Machine.execSetDrive data s
  | .setTone data => Sys2Proof.Machine.execSetTone data s
  | .setBypass data => Sys2Proof.Machine.execSetBypass data s
  | .getParam id => Sys2Proof.Machine.execGetParam id s
  | .blockStart => Sys2Proof.Machine.execBlockStart s
  | .frame => Sys2Proof.Machine.execFrame s
  | .blockEnd => Sys2Proof.Machine.execBlockEnd s
  | .illegalCmd data => Sys2Proof.Machine.execIllegalCmd data s
  | .smoothCoef p => Sys2Proof.Machine.execSmoothCoef p s
  | .smoothTick p => Sys2Proof.Machine.execSmoothTick p s
  | .smoothSnap p => Sys2Proof.Machine.execSmoothSnap p s
  | .bqClamp f q => Sys2Proof.Machine.execBqClamp f q s
  | .bqCoefLp f q => Sys2Proof.Machine.execBqCoefLp f q s
  | .bqCoefHp f q => Sys2Proof.Machine.execBqCoefHp f q s
  | .bqNorm raw => Sys2Proof.Machine.execBqNorm raw s
  | .bqCheck F k => Sys2Proof.Machine.execBqCheck F k s
  | .bqStep F c x => Sys2Proof.Machine.execBqStep F c x s
  | .bqReset F => Sys2Proof.Machine.execBqReset F s
  | .satSet drv => Sys2Proof.Machine.execSatSet drv s
  | .satStep c x => Sys2Proof.Machine.execSatStep c x s
  | .satReset => Sys2Proof.Machine.execSatReset s
  | .toneSet tone => Sys2Proof.Machine.execToneSet tone s
  | .shelfPre f gainDb => Sys2Proof.Machine.execShelfPre f gainDb s
  | .shelfCoefLo f gainDb => Sys2Proof.Machine.execShelfCoefLo f gainDb s
  | .shelfCoefHi f gainDb => Sys2Proof.Machine.execShelfCoefHi f gainDb s
  | .wowInit => Sys2Proof.Machine.execWowInit s
  | .wowLfo => Sys2Proof.Machine.execWowLfo s
  | .wowDelay lfo => Sys2Proof.Machine.execWowDelay lfo s
  | .wowStep c x k frac => Sys2Proof.Machine.execWowStep c x k frac s
  | .wowRead c k frac => Sys2Proof.Machine.execWowRead c k frac s
  | .wowWrite c x => Sys2Proof.Machine.execWowWrite c x s
  | .wowAdvance => Sys2Proof.Machine.execWowAdvance s
  | .inCond w => Sys2Proof.Machine.execInCond w s
  | .outCond x => Sys2Proof.Machine.execOutCond x s

end Sys2Proof.Machine
end

