-- ==== Sys2Proof/Machine/Agents.lean ====
section
/-! DEFINITION. The agents and their steps (10_state.md R20, 20_memory.md R56 to R58): who moves next, the two
ports' waiting transactions, the sequencer, the reset input. -/
namespace Sys2Proof.Machine

/-! ### Port A (20_memory.md R58) -/

/-- The transaction word of an access waiting on port A: `T[49] = 0` (30_encoding.md R71). -/
def portAWord (a : Access) : TWord := 0#1 ++ a

/-- The transaction word of an access waiting on port C: `T[49] = 1`. -/
def portCWord (a : Access) : TWord := 1#1 ++ a

/-- A port A transaction that is held: any but RD.STATUS while `lc = BUSY` (R58; a reserved one is held too). -/
def heldOnA (s : State) (d : Decoded) : Bool := busyFlag s && decide (d ≠ .op .rdStatus)

/-- The answer to a read of a reserved address: 0, on the port it came by (30_encoding.md R83). -/
def answerReserved (port : Port) (s : State) : State :=
  match port with
  | .a => s.answerA 0#32
  | .c => s.answerC 0#32

/-- The effect of an accepted transaction: the operation's, or a reserved access's, which is a write ignored or a
read answering 0 (30_encoding.md R83; log 21). -/
def runDecoded (d : Decoded) (s : State) : Host.Outcome State Fault Refusal :=
  match d with
  | .op i => exec i s
  | .reservedWrite _ => .next s
  | .reservedRead port => .next (answerReserved port s)

/-- The audio host's step: the oldest waiting transaction is accepted and leaves the queue, or it is held and the
step changes nothing. -/
def stepAudio (s : State) : Host.Outcome State Fault Refusal :=
  match s.portA with
  | [] => .next s
  | a :: rest =>
    if heldOnA s (decode (portAWord a)) then .next s else runDecoded (decode (portAWord a)) { s with portA := rest }

/-! ### Port C (20_memory.md R56: accepted at once in every `lc`) -/

/-- The control host's step. -/
def stepControl (s : State) : Host.Outcome State Fault Refusal :=
  match s.portC with
  | [] => .next s
  | c :: rest => runDecoded (decode (portCWord c)) { s with portC := rest }

/-! ### The sequencer (45_signal_chain.md R171) -/

/-- The sequencer's one enabled step, if `lc = BUSY`. -/
def stepSequencer (s : State) : Host.Outcome State Fault Refusal :=
  if s.lc = .busy then
    match s.ctx.phase with
    | .start => exec .blockStart s
    | .frames => exec .frame s
    | .finish => exec .blockEnd s
  else .next s

/-! ### The reset input (70_reset_and_hazards.md R260 to R262) -/

/-- Hardware reset: every register the core holds takes its reset value and `BLK` is unaffected; a block under way is
abandoned, and the hosts' waiting transactions wait on (log 11). -/
def hardwareReset (s : State) : State :=
  { State.reset with
    blk := s.blk, portA := s.portA, portC := s.portC, schedule := s.schedule
    replyA := s.replyA, replyC := s.replyC, free := s.free }

/-! ### Who moves (20_memory.md R57: the interleaving is open; log 1) -/

/-- The agent of the next step: the schedule's first, and once the schedule has run out the sequencer while a block
runs, else the port that has a transaction waiting. -/
def chosenAgent (s : State) : Agent :=
  match s.schedule with
  | a :: _ => a
  | [] => if s.lc = .busy then .sequencer else if s.portA.isEmpty then .controlHost else .audioHost

/-- One step of an agent. -/
def agentStep (a : Agent) (s : State) : Host.Outcome State Fault Refusal :=
  match a with
  | .audioHost => stepAudio s
  | .controlHost => stepControl s
  | .sequencer => stepSequencer s
  | .resetInput => .next (hardwareReset s)

/-- One step of the machine: the chosen agent's, its entry of the schedule being used up. -/
def machineStep (s : State) : Host.Outcome State Fault Refusal :=
  agentStep (chosenAgent s) { s with schedule := s.schedule.tail }

/-! ### Placing a transaction (log 2) -/

/-- `t` issued at the port its bit 49 names, ahead of whatever waits there, its host being the next to move. -/
def placeTransaction (t : TWord) (s : State) : State :=
  if t.isPortC then { s with portC := t.extractLsb' 0 49 :: s.portC, schedule := .controlHost :: s.schedule }
  else { s with portA := t.extractLsb' 0 49 :: s.portA, schedule := .audioHost :: s.schedule }

end Sys2Proof.Machine
end

