-- ==== Sys2Proof/Machine/Step.lean ====
section
/-! DEFINITION. The step of the machine, and how a transaction is put where the next step finds it. -/
namespace Sys2Proof.Machine

/-- One atomic step (20_memory.md R57). -/
def step (s : State) : Host.Outcome State Fault Refusal := machineStep s

/-- `s` with the transaction whose bits are `w` issued at its port, so that the next step takes it. TAPECORE runs no
program from a memory: a program is what the hosts issue (30_encoding.md R70; log 2). -/
def State.withFetchWord (s : State) (nbits w : Nat) : State := placeTransaction (BitVec.ofNat 50 (w % 2 ^ nbits)) s

end Sys2Proof.Machine
end

