-- ==== Sys2Proof/Safety.lean ====
section
/-! DEFINITION. What counts as a safe run of TAPECORE, in the terms the statements use: a step that completes, and the
invariant the rules promise between steps. -/
namespace Sys2Proof.Machine

/-- The outcome is a next state (60_exceptions.md R240: nothing "is permitted to fail loudly"). -/
def Completes (o : Host.Outcome State Fault Refusal) : Prop := ∃ t, o = .next t

/-- A value `cond` has nothing to do to: finite, and zero (as `+0.0`) or of magnitude at least `1e-15`
(45_signal_chain.md R176). -/
def settled (x : F64) : Bool := decide (cond x = x)

/-- A word the chain may leave in `BLK` (46_host_commands.md R200): a finite binary32, never `-0.0` and never
subnormal. -/
def cleanSample (w : Word) : Bool := decide (w = 0#32) || (finite32 w && decide (0x00800000 ≤ F32.mag w))

/-! ### The parts of the invariant -/

/-- Both memories are in canonical form and within their depths (10_state.md R37, R38). -/
def memoriesOk (s : State) : Bool :=
  Memory.wf s.blk.c0 && Memory.wf s.blk.c1 && Memory.wf s.dl.c0 && Memory.wf s.dl.c1 &&
  Memory.within Config.blkMax s.blk.c0 && Memory.within Config.blkMax s.blk.c1 &&
  Memory.within Config.dlMax s.dl.c0 && Memory.within Config.dlMax s.dl.c1

/-- What a holder may contain (46_host_commands.md R205(a); 10_state.md R30: Bypass holds `0.0f` or `1.0f`). -/
def legalHolder (id : Fin 8) (w : Word) : Bool :=
  if id = 7 then decide (w = 0x00000000#32) || decide (w = 0x3F800000#32)
  else !isNaN32 w && fge32 w Config.lo[id] && fge32 Config.hi[id] w

/-- Every holder is legal. -/
def holdersLegal (s : State) : Bool := decide (∀ id : Fin 8, legalHolder id s.holder[id] = true)

/-- The active configuration is one PREPARE writes (10_state.md R31, R36; 44_wow.md R151, R152). -/
def configLegal (s : State) : Bool :=
  legalFs s.dsp.fs && decide (s.dsp.maxBlk ≤ Config.blkMax) &&
  (decide (s.dsp.nch = 1) || decide (s.dsp.nch = 2)) &&
  decide (s.dsp.len = lineLength s.dsp.fs) && decide (s.dsp.phaseInc = phaseIncOf s.dsp.fs) &&
  decide (s.dsp.wowPtr < s.dsp.len) && decide (s.dsp.len ≤ Config.dlMax)

/-- The block context while `lc = BUSY` (10_state.md R23, 45_signal_chain.md R171). -/
def blockLegal (s : State) : Bool :=
  decide (s.ctx.nsamp ≤ s.dsp.maxBlk) &&
  match s.ctx.phase with
  | .start => decide (s.ctx.frameIdx = 0)
  | .frames => !s.ctx.byp && decide (s.ctx.frameIdx < s.ctx.nsamp)
  | .finish => decide (s.ctx.frameIdx = if s.ctx.byp then 0 else s.ctx.nsamp)

/-- Four settled values. -/
def settledHist (h : Hist) : Bool := settled h.x1 && settled h.x2 && settled h.y1 && settled h.y2

/-- Finite coefficients (41_resonant_filter.md R107) and settled histories (45_signal_chain.md R179). -/
def biquadOk (b : Biquad) : Bool := Coefs.finite b.k && settledHist b.h.c0 && settledHist b.h.c1

/-- Every element below `n` of a delay memory is settled (44_wow.md R158: only conditioned values and zeros are
written). -/
def settledBelow (n : Nat) (m : Memory 64) : Bool := m.all fun e => decide (n ≤ e.1) || settled e.2

/-- No NaN and no infinity in any coefficient, history, `SAT.lp` or used `DL` element (R179). -/
def audioStateOk (s : State) : Bool :=
  biquadOk s.dsp.lcf && biquadOk s.dsp.lsf && biquadOk s.dsp.hsf && biquadOk s.dsp.hcf &&
  settled s.dsp.sat.lp.c0 && settled s.dsp.sat.lp.c1 &&
  settledBelow s.dsp.len s.dl.c0 && settledBelow s.dsp.len s.dl.c1

/-- The LFO phase is in `[0, 2π)` (10_state.md R36, 44_wow.md R154(c)). -/
def phaseInRange (s : State) : Bool := fge s.dsp.wowPhase posZero && flt s.dsp.wowPhase Config.twoPi

/-- The record of errors is one the rules can leave (60_exceptions.md R231): a code from 0 to 6; a code belongs to a
sticky bit that is set; no code, no bit. -/
def recordOk (s : State) : Bool :=
  decide (s.errCode.toNat ≤ 6) &&
  (decide (s.errCode = 0#4) == (!s.cfgErr && !s.seqErr)) &&
  (s.cfgErr || decide (s.errCode.toNat = 0) || decide (4 ≤ s.errCode.toNat)) &&
  (s.seqErr || decide (s.errCode.toNat ≤ 3))

/-- The invariant every step keeps. What only a prepared core promises is asked of a prepared core only. -/
structure MachineInvariant (s : State) : Prop where
  memories : memoriesOk s = true
  holders : holdersLegal s = true
  record : recordOk s = true
  config : s.lc ≠ .unprepared → configLegal s = true
  audio : s.lc ≠ .unprepared → audioStateOk s = true
  block : s.lc = .busy → blockLegal s = true

/-! ### Silence (45_signal_chain.md R183) -/

/-- A history of zeros. -/
def silentHist (h : Hist) : Bool := decide (h = Hist.zero)

/-- Channel `c` of the chain holds nothing but `+0.0`: its histories, `SAT.lp[c]` and `DL[c]` below `L`. -/
def silentChannel (c : Chan) (s : State) : Bool :=
  silentHist (s.dsp.lcf.h.get c) && silentHist (s.dsp.lsf.h.get c) && silentHist (s.dsp.hsf.h.get c) &&
  silentHist (s.dsp.hcf.h.get c) && decide (s.dsp.sat.lp.get c = posZero) &&
  (s.dl.get c).all fun e => decide (s.dsp.len ≤ e.1)

/-! ### What belongs to one channel (10_state.md R41) -/

/-- The part of the state that channel `c` owns: its histories, `SAT.lp[c]`, `BLK[c]` and `DL[c]`. -/
structure ChannelView where
  lcf : Hist
  lsf : Hist
  hsf : Hist
  hcf : Hist
  lp : F64
  blk : Memory 32
  dl : Memory 64
deriving DecidableEq, Repr

/-- Channel `c`'s part of a state. -/
def State.channel (s : State) (c : Chan) : ChannelView :=
  { lcf := s.dsp.lcf.h.get c, lsf := s.dsp.lsf.h.get c, hsf := s.dsp.hsf.h.get c, hcf := s.dsp.hcf.h.get c
    lp := s.dsp.sat.lp.get c, blk := s.blk.get c, dl := s.dl.get c }

/-- What FRAME reads besides a channel's own part: the holders, the block context, the configuration, the smoothers,
the coefficients, the held values of the saturation stage, the phase and the pointer. -/
structure SharedView where
  holder : Vector Word 8
  ctx : BlockCtx
  fs : F64
  nch : Nat
  len : Nat
  phaseInc : F64
  smooth : Vector Smoother 7
  lcf : Coefs
  lsf : Coefs
  hsf : Coefs
  hcf : Coefs
  g : F64
  norm : F64
  alp : F64
  phase : F64
  ptr : Nat
deriving DecidableEq, Repr

/-- The shared part of a state. -/
def State.shared (s : State) : SharedView :=
  { holder := s.holder, ctx := s.ctx, fs := s.dsp.fs, nch := s.dsp.nch, len := s.dsp.len
    phaseInc := s.dsp.phaseInc, smooth := s.dsp.smooth
    lcf := s.dsp.lcf.k, lsf := s.dsp.lsf.k, hsf := s.dsp.hsf.k, hcf := s.dsp.hcf.k
    g := s.dsp.sat.g, norm := s.dsp.sat.norm, alp := s.dsp.sat.alp
    phase := s.dsp.wowPhase, ptr := s.dsp.wowPtr }

/-! ### The wires of a frame (45_signal_chain.md R175 lines 7 to 13, R176) -/

/-- The values `x0` to `x6` of one channel in one frame. -/
structure Wires where
  x0 : F64
  x1 : F64
  x2 : F64
  x3 : F64
  x4 : F64
  x5 : F64
  x6 : F64
deriving DecidableEq, Repr

/-- The wires of channel `c` for frame `n` and the delay `(i, frac)`, each stage reading its own state as `s` holds
it (R182: stage `k` depends only on stage `k-1` and on its own state). -/
def wires (num : Config.Numerics) (n i : Nat) (frac : F64) (c : Chan) (s : State) : Wires :=
  let x0 := cond (widen32 (s.readBlk c n))
  let x1 := biquadOut s.dsp.lcf.k (s.dsp.lcf.h.get c) x0
  let x2 := onePole s.dsp.sat.alp (s.dsp.sat.lp.get c) (waveshape num s.dsp.sat.g s.dsp.sat.norm x1)
  let x3 := biquadOut s.dsp.lsf.k (s.dsp.lsf.h.get c) x2
  let x4 := biquadOut s.dsp.hsf.k (s.dsp.hsf.h.get c) x3
  let x5 := biquadOut s.dsp.hcf.k (s.dsp.hcf.h.get c) x4
  { x0 := x0, x1 := x1, x2 := x2, x3 := x3, x4 := x4, x5 := x5
    x6 := interpolate (s.readDl c (tapIndex s.dsp.wowPtr s.dsp.len i))
      (s.readDl c (tapIndex s.dsp.wowPtr s.dsp.len (i + 1))) frac }

end Sys2Proof.Machine
end

