-- ==== Sys2Proof/Certificates/Slice0/Obligations.lean ====
section
/-! DEFINITION. The statements for the provers, from the numbered rules of spec/. Every one that has hypotheses has its
witness in Tests/Slice0.lean. Floating-point operations stand for IEEE-754's (00_scope.md R12); `hardwareNum` is the
numerics record, of which nothing but R14 can be proved. -/

open Sys2Proof Sys2Proof.Machine

/-! ### Encoding -/

/-- 30_encoding.md R70 to R79: decoding the transaction word of a well-formed operation gives it back, with every
operand at every value. -/
def Obligations.DecodeOfEncode : Prop :=
  ∀ (i : Instr) (t : TWord), i.wellFormed = true → encode i = some t → decode t = .op i

/-- R78, R71: whatever operation a word decodes to is well formed and has a transaction word of the same port,
direction and address; for a write it is the word itself, so that no bit of a write is dropped. -/
def Obligations.EncodeOfDecode : Prop :=
  ∀ (t : TWord) (i : Instr), decode t = .op i →
    i.wellFormed = true ∧
    ∃ e : TWord, encode i = some e ∧ e.isPortC = t.isPortC ∧ e.isWrite = t.isWrite ∧ e.addr = t.addr ∧
      (t.isWrite = true → e = t)

/-- R79: the ordered cases of R78 and the first matching row of the table read the same operation from every word. -/
def Obligations.DecodeAgreesWithTheTable : Prop := ∀ t : TWord, (decode t).op? = decodeByTable t

/-- R83: the reserved transactions are exactly these. -/
def Obligations.ReservedTransactionsAreTheseAddresses : Prop :=
  ∀ t : TWord,
    (decode t).op? = none ↔
      (t.isPortC = true ∧ ¬ (0x0010 ≤ t.addr.toNat ∧ t.addr.toNat ≤ 0x0017)) ∨
      (t.isPortC = false ∧
        (¬ (t.addr.toNat ≤ 0x0006 ∨ (0x4000 ≤ t.addr.toNat ∧ t.addr.toNat ≤ 0x5FFF) ∨
            (0x8000 ≤ t.addr.toNat ∧ t.addr.toNat ≤ 0x9FFF)) ∨
          (t.addr.toNat = 0x0000 ∧ t.isWrite = false) ∨ (t.addr.toNat = 0x0001 ∧ t.isWrite = true)))

/-- R87: no transaction selects a sequencer step or an internal operation. -/
def Obligations.NoTransactionSelectsAnInternalOperation : Prop :=
  ∀ (t : TWord) (i : Instr), decode t = .op i →
    (t.isPortC = false → i.port = some .a) ∧ (t.isPortC = true → i.port = some .c)

/-- Words written out from R71 to R76 decode to what they stand for. -/
def Obligations.WordsDecodeAsWritten : Prop :=
  decode 0x1000000000001#50 = .op .cmdPrepare ∧
  decode 0x1000340E77000#50 = .op (.wrFsHi 0x40E77000#32) ∧
  decode 0x0000100000000#50 = .op .rdStatus ∧
  decode 0x140053F000000#50 = .op (.wrBlk0 5#13 0x3F000000#32) ∧
  decode 0x09FFF00000000#50 = .op (.rdBlk1 8191#13) ∧
  decode 0x300153E800000#50 = .op (.setDrive 0x3E800000#32) ∧
  decode 0x2001700000000#50 = .op (.getParam 7#3) ∧
  decode 0x1000000000101#50 = .op (.illegalCmd 0x00000101#32)

/-! ### The step -/

/-- 20_memory.md R57, R58: a step of a host runs the operation its oldest transaction decodes to, on the state
without that transaction (and without the schedule's entry); a step of the sequencer runs the step its phase
enables. -/
def Obligations.StepRunsTheDecodedInstruction : Prop :=
  ∀ (s : State) (rest : List Agent) (a : Access) (queue : List Access) (i : Instr),
    (s.schedule = .audioHost :: rest → s.portA = a :: queue → decode (0#1 ++ a) = .op i →
      (s.lc ≠ .busy ∨ i = .rdStatus) →
      step s = exec i { s with schedule := rest, portA := queue }) ∧
    (s.schedule = .controlHost :: rest → s.portC = a :: queue → decode (1#1 ++ a) = .op i →
      step s = exec i { s with schedule := rest, portC := queue }) ∧
    (s.schedule = .sequencer :: rest → s.lc = .busy →
      (s.ctx.phase = .start → step s = exec .blockStart { s with schedule := rest }) ∧
      (s.ctx.phase = .frames → step s = exec .frame { s with schedule := rest }) ∧
      (s.ctx.phase = .finish → step s = exec .blockEnd { s with schedule := rest }))

/-- The model's placing of a transaction (log 2): the next step runs exactly the operation of the word placed. -/
def Obligations.PlacedTransactionIsRunNext : Prop :=
  ∀ (s : State) (nbits w : Nat) (i : Instr),
    decodeTableWord nbits w = some i → (s.lc ≠ .busy ∨ i = .rdStatus ∨ i.port = some .c) →
      step (s.withFetchWord nbits w) = exec i s

/-- R58: while a block runs, every port A transaction but RD.STATUS stays at the port and nothing of it happens; with
an unread entry of the schedule used up. -/
def Obligations.PortAHoldsWhileBusy : Prop :=
  ∀ (s : State) (rest : List Agent) (a : Access) (queue : List Access),
    s.lc = .busy → s.schedule = .audioHost :: rest → s.portA = a :: queue → decode (0#1 ++ a) ≠ .op .rdStatus →
      step s = .next { s with schedule := rest }

/-- 30_encoding.md R83: a write to a reserved address is ignored, a read returns 0, on either port; nothing else
changes. -/
def Obligations.ReservedAccessesDoNothing : Prop :=
  ∀ (s : State) (rest : List Agent) (a : Access) (queue : List Access),
    (s.schedule = .audioHost :: rest → s.portA = a :: queue → s.lc ≠ .busy →
      (decode (0#1 ++ a) = .reservedWrite .a → step s = .next { s with schedule := rest, portA := queue }) ∧
      (decode (0#1 ++ a) = .reservedRead .a →
        step s = .next { s with schedule := rest, portA := queue, replyA := 0#32 })) ∧
    (s.schedule = .controlHost :: rest → s.portC = a :: queue →
      (decode (1#1 ++ a) = .reservedWrite .c → step s = .next { s with schedule := rest, portC := queue }) ∧
      (decode (1#1 ++ a) = .reservedRead .c →
        step s = .next { s with schedule := rest, portC := queue, replyC := 0#32 }))

/-- 60_exceptions.md R240: nothing fails loudly: every operation on every state answers a next state, and so does
every step. -/
def Obligations.NothingFailsLoudly : Prop :=
  (∀ (i : Instr) (s : State), Completes (exec i s)) ∧ ∀ s : State, Completes (step s)

/-! ### Reset -/

/-- 70_reset_and_hazards.md R261, the values the spec gives: no block, `STATUS = 0`, the configuration registers and
`NUMSAMP` 0, each holder at its default (00_scope.md R6). -/
def Obligations.ResetLeavesTheStatedValues : Prop :=
  State.reset.lc = .unprepared ∧ statusWord State.reset = 0x00000000#32 ∧
  State.reset.cfgFsLo = 0#32 ∧ State.reset.cfgFsHi = 0#32 ∧ State.reset.cfgMaxBlk = 0#32 ∧
  State.reset.cfgNch = 0#32 ∧ State.reset.numSamp = 0#32 ∧
  State.reset.holder = #v[0x00000000#32, 0x41A00000#32, 0x3F34FDF4#32, 0x469C4000#32, 0x3F34FDF4#32, 0x00000000#32,
    0x00000000#32, 0x00000000#32]

/-- R260, R262: the reset input acts in any state, also inside a block: every register with a reset value takes it,
and the transactions that wait at the ports wait on. That `BLK` keeps its words in every state is the model's choice
(log 11, DESIGN CHOICE): 10_state.md R37 says that hardware reset does not write it and R262 says so of a block under
way, while R261 calls the words unspecified. The schedule and the queues are the model's too (logs 1, 2 and 11). -/
def Obligations.HardwareResetAtAnyTime : Prop :=
  ∀ (s : State) (rest : List Agent), s.schedule = .resetInput :: rest →
    ∃ t : State, step s = .next t ∧
      t.lc = .unprepared ∧ statusWord t = 0x00000000#32 ∧
      t.cfgFsLo = 0#32 ∧ t.cfgFsHi = 0#32 ∧ t.cfgMaxBlk = 0#32 ∧ t.cfgNch = 0#32 ∧ t.numSamp = 0#32 ∧
      t.holder = Config.default ∧ t.blk = s.blk ∧ t.portA = s.portA ∧ t.portC = s.portC ∧ t.schedule = rest

/-! ### The registers of port A -/

/-- 46_host_commands.md R191 to R195: each configuration write has its address on port A, stores its data in its
register and changes nothing else: not the active configuration, no flag. -/
def Obligations.ConfigurationWritesStoreTheirData : Prop :=
  ∀ (s : State) (data : Word), s.lc ≠ .busy →
    decode (TWord.make false true 0x0002#16 data) = .op (.wrFsLo data) ∧
    decode (TWord.make false true 0x0003#16 data) = .op (.wrFsHi data) ∧
    decode (TWord.make false true 0x0004#16 data) = .op (.wrMaxBlk data) ∧
    decode (TWord.make false true 0x0005#16 data) = .op (.wrNch data) ∧
    decode (TWord.make false true 0x0006#16 data) = .op (.wrNumSamp data) ∧
    exec (.wrFsLo data) s = .next { s with cfgFsLo := data } ∧
    exec (.wrFsHi data) s = .next { s with cfgFsHi := data } ∧
    exec (.wrMaxBlk data) s = .next { s with cfgMaxBlk := data } ∧
    exec (.wrNch data) s = .next { s with cfgNch := data } ∧
    exec (.wrNumSamp data) s = .next { s with numSamp := data }

/-- R203, 10_state.md R26: RD.STATUS completes in every lifecycle state, changes nothing but the answer, and each of
the answer's 32 bits is the field the layout says. -/
def Obligations.StatusReadAnswersEveryField : Prop :=
  ∀ s : State, ∃ t : State, exec .rdStatus s = .next t ∧ t = { s with replyA := t.replyA } ∧
    t.replyA.getLsbD 0 = decide (s.lc ≠ .unprepared) ∧ t.replyA.getLsbD 1 = decide (s.lc = .busy) ∧
    t.replyA.getLsbD 2 = s.cfgErr ∧ t.replyA.getLsbD 3 = s.seqErr ∧
    (∀ k, 4 ≤ k → k < 8 → t.replyA.getLsbD k = false) ∧
    (∀ k, k < 4 → t.replyA.getLsbD (8 + k) = s.errCode.getLsbD k) ∧
    (∀ k, 12 ≤ k → t.replyA.getLsbD k = false)

/-- R220, R221: a block write stores the word at its index of its channel's buffer and changes no other element and
nothing else. -/
def Obligations.BlockWritesStoreOneElement : Prop :=
  ∀ (s : State) (idx : BitVec 13) (data : Word), memoriesOk s = true → s.lc ≠ .busy →
    (∃ t : State, exec (.wrBlk0 idx data) s = .next t ∧ t = { s with blk := t.blk } ∧
      ∀ (c : Chan) (a : Nat), t.readBlk c a = if c = .c0 ∧ a = idx.toNat then data else s.readBlk c a) ∧
    (∃ t : State, exec (.wrBlk1 idx data) s = .next t ∧ t = { s with blk := t.blk } ∧
      ∀ (c : Chan) (a : Nat), t.readBlk c a = if c = .c1 ∧ a = idx.toNat then data else s.readBlk c a)

/-- R215 to R219, R222, R223: every other read answers its register's or element's word on port A (`replyA`, log 4) and
changes nothing else. -/
def Obligations.ReadsAnswerTheStoredWord : Prop :=
  ∀ (s : State) (idx : BitVec 13), s.lc ≠ .busy →
    exec .rdFsLo s = .next { s with replyA := s.cfgFsLo } ∧
    exec .rdFsHi s = .next { s with replyA := s.cfgFsHi } ∧
    exec .rdMaxBlk s = .next { s with replyA := s.cfgMaxBlk } ∧
    exec .rdNch s = .next { s with replyA := s.cfgNch } ∧
    exec .rdNumSamp s = .next { s with replyA := s.numSamp } ∧
    exec (.rdBlk0 idx) s = .next { s with replyA := s.readBlk .c0 idx.toNat } ∧
    exec (.rdBlk1 idx) s = .next { s with replyA := s.readBlk .c1 idx.toNat }

/-! ### Parameters -/

/-- 46_host_commands.md R205 with the bounds of R206 to R213: in every lifecycle state a SETPARAM drops a NaN, stores
the nearest bound of a value out of range and any other value unchanged; Bypass stores 1.0 from 0.5 on and 0.0 below.
It changes its holder and nothing else. Its address on port C is `0x0010` plus the parameter's id. -/
def Obligations.SetParamClampsAndStores : Prop :=
  ∀ (s : State) (data : Word) (id : Fin 8) (op : Word → Instr) (low high : Word),
    ((id, op, low, high) ∈
        [((0 : Fin 8), Instr.setWowDepth, 0x00000000#32, 0x3F800000#32),
         (1, Instr.setLowCutFreq, 0x41A00000#32, 0x43480000#32),
         (2, Instr.setLowCutQ, 0x3DCCCCCD#32, 0x40000000#32),
         (3, Instr.setHighCutFreq, 0x459C4000#32, 0x469C4000#32),
         (4, Instr.setHighCutQ, 0x3DCCCCCD#32, 0x40000000#32),
         (5, Instr.setDrive, 0x00000000#32, 0x3F800000#32),
         (6, Instr.setTone, 0xBF800000#32, 0x3F800000#32)] →
      decode (TWord.make true true (0x0010#16 + BitVec.ofNat 16 id.val) data) = .op (op data) ∧
      ∃ t : State, exec (op data) s = .next t ∧ t = { s with holder := t.holder } ∧
        (∀ j : Fin 8, j ≠ id → t.holder[j] = s.holder[j]) ∧
        t.holder[id] =
          if isNaN32 data then s.holder[id] else if flt32 data low then low else if flt32 high data then high
          else data) ∧
    decode (TWord.make true true 0x0017#16 data) = .op (.setBypass data) ∧
    ∃ t : State, exec (.setBypass data) s = .next t ∧ t = { s with holder := t.holder } ∧
      (∀ j : Fin 8, j ≠ 7 → t.holder[j] = s.holder[j]) ∧
      t.holder[(7 : Fin 8)] =
        if isNaN32 data then s.holder[(7 : Fin 8)] else if fge32 data 0x3F000000#32 then 0x3F800000#32
        else 0x00000000#32

/-- R214: GETPARAM answers the holder on port C (`replyC`, log 4) in every lifecycle state and changes nothing else. -/
def Obligations.GetParamAnswersTheHolder : Prop :=
  ∀ (s : State) (id : BitVec 3), exec (.getParam id) s = .next { s with replyC := s.holder[id.toFin] }

/-- R205(a) and 40_smoother.md R97: a SETPARAM of any word keeps every holder legal, and issuing it a second time
changes nothing more. -/
def Obligations.SetParamKeepsHoldersLegalAndIsIdempotent : Prop :=
  ∀ (id : BitVec 3) (data : Word) (s : State), holdersLegal s = true →
    ∃ t : State, exec (setParam id data) s = .next t ∧ holdersLegal t = true ∧
      exec (setParam id data) t = .next t

/-! ### The commands -/

/-- R196, the accepting case: with a sample rate in `[1, 192000]`, a block size in `[0, 8192]` and 1 or 2 channels,
PREPARE makes the core IDLE with the arguments active, every smoother snapped, every filter and the saturation stage
reset, the delay line silent below `L`, the error record clear; and it touches nothing else. -/
def Obligations.PrepareAcceptsLegalArguments : Prop :=
  ∀ s : State, s.lc ≠ .busy →
    fge (s.cfgFsHi ++ s.cfgFsLo) 0x3FF0000000000000#64 = true →
    fle (s.cfgFsHi ++ s.cfgFsLo) 0x4107700000000000#64 = true →
    0 ≤ s.cfgMaxBlk.toInt → s.cfgMaxBlk.toInt ≤ 8192 → (s.cfgNch.toInt = 1 ∨ s.cfgNch.toInt = 2) →
    ∃ t : State, exec .cmdPrepare s = .next t ∧
      t = { s with lc := .idle, cfgErr := false, seqErr := false, errCode := 0#4, dsp := t.dsp, dl := t.dl } ∧
      t.dsp.fs = s.cfgFsHi ++ s.cfgFsLo ∧ (t.dsp.maxBlk : Int) = s.cfgMaxBlk.toInt ∧
      (t.dsp.nch : Int) = s.cfgNch.toInt ∧
      t.dsp.phaseInc = fdiv (fmul Config.twoPi Config.lfoHz) t.dsp.fs ∧
      (t.dsp.len : Int) = ceilF64 (fdiv (fmul Config.bufCapMs t.dsp.fs) thousand) + 1 ∧
      (∀ p : Fin 7, t.dsp.smooth[p].cur = widen32 s.holder[p.castSucc] ∧
        t.dsp.smooth[p].coeff =
          fsub one (hardwareNum.exp (fneg (fdiv one (fmul Config.timeConstant[p] t.dsp.fs))))) ∧
      (∀ F : FilterId, (t.dsp.filter F).k = ⟨one, posZero, posZero, posZero, posZero⟩ ∧
        ∀ c : Chan, (t.dsp.filter F).h.get c = ⟨posZero, posZero, posZero, posZero⟩) ∧
      t.dsp.sat = ⟨one, one, one, ⟨posZero, posZero⟩⟩ ∧
      t.dsp.wowPhase = posZero ∧ t.dsp.wowPtr = 0 ∧
      (∀ (c : Chan) (k : Nat), k < t.dsp.len → t.readDl c k = posZero)

/-- R196 and 60_exceptions.md R233, R237: PREPARE tests the sample rate, then the block size, then the channel count,
and the first that fails is the code reported; the core is UNPREPARED with CFG_ERR set, SEQ_ERR as it was, and the
registers, the holders and BLK untouched. -/
def Obligations.PrepareRejectsInOrder : Prop :=
  ∀ s : State, s.lc ≠ .busy →
    let legalRate := fge (s.cfgFsHi ++ s.cfgFsLo) 0x3FF0000000000000#64 = true ∧
      fle (s.cfgFsHi ++ s.cfgFsLo) 0x4107700000000000#64 = true
    let legalBlock := 0 ≤ s.cfgMaxBlk.toInt ∧ s.cfgMaxBlk.toInt ≤ 8192
    let legalChannels := s.cfgNch.toInt = 1 ∨ s.cfgNch.toInt = 2
    let rejected := fun (code : BitVec 4) => ∃ t : State, exec .cmdPrepare s = .next t ∧
      t = { s with lc := .unprepared, cfgErr := true, errCode := code, dsp := t.dsp, dl := t.dl, free := t.free }
    (¬ legalRate → rejected 1#4) ∧
    (legalRate → ¬ legalBlock → rejected 2#4) ∧
    (legalRate → legalBlock → ¬ legalChannels → rejected 3#4)

/-- R199: PROCESS is rejected with code 4 in UNPREPARED and with code 5 for a frame count below 0 or above `maxBlk`,
setting SEQ_ERR and changing nothing else; else the block begins: the count is copied, `frameIdx` is 0, `phase` is
START and the core is BUSY, nothing else changing but the context. Its transaction is a write of `CMD` with data 2. -/
def Obligations.ProcessBeginsABlockOrIsRejected : Prop :=
  decode (TWord.make false true 0x0000#16 2#32) = .op .cmdProcess ∧
  ∀ s : State,
    (s.lc = .unprepared → exec .cmdProcess s = .next { s with errCode := 4#4, seqErr := true }) ∧
    (s.lc = .idle → (s.numSamp.toInt < 0 ∨ (s.dsp.maxBlk : Int) < s.numSamp.toInt) →
      exec .cmdProcess s = .next { s with errCode := 5#4, seqErr := true }) ∧
    (s.lc = .idle → 0 ≤ s.numSamp.toInt → s.numSamp.toInt ≤ (s.dsp.maxBlk : Int) →
      ∃ t : State, exec .cmdProcess s = .next t ∧ t = { s with lc := .busy, ctx := t.ctx } ∧
        (t.ctx.nsamp : Int) = s.numSamp.toInt ∧ t.ctx.frameIdx = 0 ∧ t.ctx.phase = .start)

/-- R202: RELEASE changes nothing in UNPREPARED; in IDLE it makes the core UNPREPARED and takes its value from the DSP
state, leaving the error record, the registers, the holders and BLK. -/
def Obligations.ReleaseClearsTheStream : Prop :=
  ∀ s : State,
    (s.lc = .unprepared → exec .cmdRelease s = .next s) ∧
    (s.lc = .idle → ∃ t : State, exec .cmdRelease s = .next t ∧
      t = { s with lc := .unprepared, dsp := t.dsp, dl := t.dl, free := t.free })

/-- 60_exceptions.md R235: a write of `CMD` with any other data is the illegal command, which records code 6 and
leaves everything else unchanged. -/
def Obligations.IllegalCommandRecordsCodeSix : Prop :=
  ∀ (s : State) (data : Word), data ≠ 1#32 → data ≠ 2#32 → data ≠ 3#32 → s.lc ≠ .busy →
    decode (TWord.make false true 0x0000#16 data) = .op (.illegalCmd data) ∧
    exec (.illegalCmd data) s = .next { s with errCode := 6#4, seqErr := true }

/-! ### The error record and the lifecycle -/

/-- R238: nothing but a successful PREPARE (and hardware reset) clears the record: after any operation that does not
end as a successful PREPARE does, a set sticky bit is still set and a code is still there. -/
def Obligations.NothingElseClearsTheRecord : Prop :=
  ∀ (i : Instr) (s t : State), exec i s = .next t → (i = .cmdPrepare → t.lc ≠ .idle) →
    (s.cfgErr = true → t.cfgErr = true) ∧ (s.seqErr = true → t.seqErr = true) ∧
    (s.errCode ≠ 0#4 → t.errCode ≠ 0#4)

/-- 10_state.md R22: the lifecycle state changes by these transitions and no other. -/
def Obligations.LifecycleChangesOnlyByTheseTransitions : Prop :=
  ∀ (i : Instr) (s t : State), exec i s = .next t → t.lc ≠ s.lc →
    (i = .cmdPrepare ∧ s.lc = .unprepared ∧ t.lc = .idle) ∨
    (i = .cmdPrepare ∧ s.lc = .idle ∧ t.lc = .unprepared) ∨
    (i = .cmdRelease ∧ s.lc = .idle ∧ t.lc = .unprepared) ∨
    (i = .cmdProcess ∧ s.lc = .idle ∧ t.lc = .busy) ∨
    (i = .blockEnd ∧ s.lc = .busy ∧ t.lc = .idle)

/-- R21, R30, R37, R63: who writes what. A port C operation writes the holders (and its answer) and nothing else; no
other operation writes a holder; a port A operation writes neither a smoother nor any other part of the DSP state
unless it is PREPARE or RELEASE; the block buffers are written by the block writes and FRAME only. -/
def Obligations.EveryElementHasItsWriters : Prop :=
  ∀ (i : Instr) (s t : State), exec i s = .next t →
    (i.port = some .c → t = { s with holder := t.holder, replyC := t.replyC }) ∧
    (i.port ≠ some .c → t.holder = s.holder) ∧
    (i.port = some .a → i ≠ .cmdPrepare → i ≠ .cmdRelease → t.dsp = s.dsp ∧ t.dl = s.dl) ∧
    (t.blk ≠ s.blk → i = .frame ∨ (∃ idx d, i = .wrBlk0 idx d) ∨ ∃ idx d, i = .wrBlk1 idx d)

/-! ### The sequencer -/

/-- 45_signal_chain.md R172 lines 1 to 4 and R174: with Bypass on, BLOCK_START latches it and goes to END; nothing
else is written. -/
def Obligations.BypassedBlockStartWritesTheContextOnly : Prop :=
  ∀ s : State, s.lc = .busy → s.ctx.phase = .start → s.holder[(7 : Fin 8)] = 0x3F800000#32 →
    exec .blockStart s = .next { s with ctx := ⟨s.ctx.nsamp, 0, .finish, true⟩ }

/-- R172: without Bypass, BLOCK_START computes every held coefficient from the smoothers' values of this instant, keeps
every history, and goes to FRAMES (to END for an empty block). -/
def Obligations.BlockStartComputesEveryCoefficient : Prop :=
  ∀ s : State, s.lc = .busy → s.ctx.phase = .start → s.holder[(7 : Fin 8)] ≠ 0x3F800000#32 →
    let num := hardwareNum
    let fs := s.dsp.fs
    let cur := fun p : Fin 7 => s.dsp.smooth[p].cur
    let gainDb := fmul (clamp (cur 6) negOne one) Config.toneDbSpan
    ∃ t : State, exec .blockStart s = .next t ∧ t = { s with dsp := t.dsp, ctx := t.ctx } ∧
      t.ctx = ⟨s.ctx.nsamp, 0, if 0 < s.ctx.nsamp then .frames else .finish, false⟩ ∧
      t.dsp = { s.dsp with
        lcf := ⟨checked (normalise (coefHp num fs (clampFreq fs (cur 1)) (clampQ (cur 2)))), s.dsp.lcf.h⟩
        hcf := ⟨checked (normalise (coefLp num fs (clampFreq fs (cur 3)) (clampQ (cur 4)))), s.dsp.hcf.h⟩
        lsf := ⟨checked (normalise (shelfLo num fs Config.lowShelfHz gainDb)), s.dsp.lsf.h⟩
        hsf := ⟨checked (normalise (shelfHi num fs Config.highShelfHz (fneg gainDb))), s.dsp.hsf.h⟩
        sat := ⟨satGain (cur 5), num.tanh (satGain (cur 5)), satAlpha num fs (cur 5), s.dsp.sat.lp⟩ }

/-- R175: what one FRAME does, whole. Every smoother ticks; the oscillator and the delay are computed once; each active
channel runs low-cut, saturation, low shelf, high shelf, high-cut and wow on its own state, its histories shift, its
input goes into its delay line and its output replaces its sample; the pointer and the frame count advance. Everything
else is unchanged: coefficients, configuration, holders, the other elements of both memories, an inactive channel. -/
def Obligations.FrameRunsTheChainOnce : Prop :=
  ∀ s : State, memoriesOk s = true → s.lc = .busy → s.ctx.phase = .frames → (s.dsp.nch = 1 ∨ s.dsp.nch = 2) →
    let n := s.ctx.frameIdx
    let depth := tickValue (widen32 s.holder[(0 : Fin 8)]) s.dsp.smooth[(0 : Fin 7)]
    let d := splitDelay (delaySamples s.dsp.fs s.dsp.len (delayMs depth (hardwareNum.sin s.dsp.wowPhase)))
    let w := fun c : Chan => wires hardwareNum n d.1 d.2 c s
    ∃ t : State, exec .frame s = .next t ∧
      t = { s with dsp := t.dsp, ctx := t.ctx, blk := t.blk, dl := t.dl } ∧
      t.ctx = ⟨s.ctx.nsamp, n + 1, if n + 1 = s.ctx.nsamp then .finish else .frames, s.ctx.byp⟩ ∧
      (∀ p : Fin 7, t.dsp.smooth[p].cur = tickValue (widen32 s.holder[p.castSucc]) s.dsp.smooth[p] ∧
        t.dsp.smooth[p].coeff = s.dsp.smooth[p].coeff) ∧
      t.dsp.wowPhase = nextPhase s.dsp.wowPhase s.dsp.phaseInc ∧
      t.dsp.wowPtr = (s.dsp.wowPtr + 1) % s.dsp.len ∧
      t.dsp.fs = s.dsp.fs ∧ t.dsp.maxBlk = s.dsp.maxBlk ∧ t.dsp.nch = s.dsp.nch ∧ t.dsp.len = s.dsp.len ∧
      t.dsp.phaseInc = s.dsp.phaseInc ∧ (∀ F : FilterId, (t.dsp.filter F).k = (s.dsp.filter F).k) ∧
      t.dsp.sat.g = s.dsp.sat.g ∧ t.dsp.sat.norm = s.dsp.sat.norm ∧ t.dsp.sat.alp = s.dsp.sat.alp ∧
      (∀ c ∈ channels s.dsp.nch,
        t.dsp.lcf.h.get c = (s.dsp.lcf.h.get c).push (w c).x0 (w c).x1 ∧
        t.dsp.sat.lp.get c = (w c).x2 ∧
        t.dsp.lsf.h.get c = (s.dsp.lsf.h.get c).push (w c).x2 (w c).x3 ∧
        t.dsp.hsf.h.get c = (s.dsp.hsf.h.get c).push (w c).x3 (w c).x4 ∧
        t.dsp.hcf.h.get c = (s.dsp.hcf.h.get c).push (w c).x4 (w c).x5) ∧
      (∀ c : Chan, c ∉ channels s.dsp.nch → t.channel c = s.channel c) ∧
      (∀ (c : Chan) (a : Nat), t.readBlk c a =
        if c ∈ channels s.dsp.nch ∧ a = n then outCond (w c).x6 else s.readBlk c a) ∧
      (∀ (c : Chan) (a : Nat), t.readDl c a =
        if c ∈ channels s.dsp.nch ∧ a = s.dsp.wowPtr then (w c).x5 else s.readDl c a)

/-- R178: BLOCK_END makes the core IDLE; the block context loses its meaning and nothing else changes. -/
def Obligations.BlockEndMakesTheCoreIdle : Prop :=
  ∀ s : State, s.lc = .busy → s.ctx.phase = .finish →
    ∃ t : State, exec .blockEnd s = .next t ∧ t = { s with lc := .idle, ctx := t.ctx, free := t.free }

/-- R178(b), R200 and 70_reset_and_hazards.md R272(b), for one shape of run only: Bypass is off and no host moves (the
schedule is empty, in which case that the sequencer moves is the model's choice, log 1). Then the accepted block ends
after exactly `nsamp + 2` steps, BUSY until then; every processed sample of an active channel is a finite binary32,
never `-0.0` and never subnormal; every other element of BLK, the holders, the registers and the error record are as
before. -/
def Obligations.UndisturbedUnbypassedBlockCompletes : Prop :=
  ∀ s : State, MachineInvariant s → s.lc = .busy → s.ctx.phase = .start → s.schedule = [] →
    s.holder[(7 : Fin 8)] ≠ 0x3F800000#32 →
    (∀ k, k < s.ctx.nsamp + 2 → ∃ u : State, Host.Core.run Sys2Proof.core k s = .next u ∧ u.lc = .busy) ∧
    ∃ t : State, Host.Core.run Sys2Proof.core (s.ctx.nsamp + 2) s = .next t ∧ t.lc = .idle ∧
      (∀ c ∈ channels s.dsp.nch, ∀ n, n < s.ctx.nsamp → cleanSample (t.readBlk c n) = true) ∧
      (∀ (c : Chan) (a : Nat), c ∉ channels s.dsp.nch ∨ s.ctx.nsamp ≤ a → t.readBlk c a = s.readBlk c a) ∧
      t = { s with lc := .idle, ctx := t.ctx, dsp := t.dsp, blk := t.blk, dl := t.dl, free := t.free }

/-- R174, R185 and R272(b): a bypassed block takes exactly two steps and leaves BLK, bit for bit, and every smoother,
history, phase, pointer, delay element and coefficient as they were. -/
def Obligations.BypassedBlockPassesThrough : Prop :=
  ∀ s : State, s.lc = .busy → s.ctx.phase = .start → s.schedule = [] → s.holder[(7 : Fin 8)] = 0x3F800000#32 →
    (∃ u : State, step s = .next u ∧ u.lc = .busy) ∧
    ∃ t : State, Host.Core.run Sys2Proof.core 2 s = .next t ∧
      t = { s with lc := .idle, ctx := t.ctx, free := t.free }

/-! ### The channels -/

/-- R175(b), 10_state.md R41: the channels do not interact. Two cores that agree on everything shared and on channel
`c`'s own state agree on both after a FRAME, whatever the other channel holds. -/
def Obligations.ChannelsDoNotInteract : Prop :=
  ∀ (c : Chan) (s s' : State), s.lc = .busy → s'.lc = .busy → s.ctx.phase = .frames →
    s.shared = s'.shared → s.channel c = s'.channel c →
    ∃ t t' : State, exec .frame s = .next t ∧ exec .frame s' = .next t' ∧
      t.shared = t'.shared ∧ t.channel c = t'.channel c

/-- R177: two channels that hold the same samples and the same state produce the same samples and the same state. -/
def Obligations.IdenticalChannelsStayIdentical : Prop :=
  ∀ s : State, s.lc = .busy → s.ctx.phase = .frames → s.dsp.nch = 2 → s.channel .c0 = s.channel .c1 →
    ∃ t : State, exec .frame s = .next t ∧ t.channel .c0 = t.channel .c1

/-- R183: silence. If an active channel's histories, `SAT.lp` and delay line are `+0.0` and its sample flushes to
zero, then after the FRAME its output sample is `0x00000000` and those elements are still `+0.0`. -/
def Obligations.SilenceStaysSilent : Prop :=
  ∀ (s : State) (c : Chan), memoriesOk s = true → s.lc = .busy → s.ctx.phase = .frames →
    s.dsp.wowPtr < s.dsp.len → c ∈ channels s.dsp.nch → silentChannel c s = true →
    inCond (s.readBlk c s.ctx.frameIdx) = posZero →
    ∃ t : State, exec .frame s = .next t ∧ silentChannel c t = true ∧ t.readBlk c s.ctx.frameIdx = 0x00000000#32

/-! ### The smoothers -/

/-- 40_smoother.md R91, R92, R93: what each smoother operation stores, and that it changes nothing else (TICK also
answers the new value). -/
def Obligations.SmootherOperationsFollowTheirFormulas : Prop :=
  ∀ (s : State) (p : Fin 7),
    let tgt := widen32 s.holder[p.castSucc]
    let m := s.dsp.smooth[p]
    let v := fadd m.cur (fmul (fsub tgt m.cur) m.coeff)
    let coeff := fsub one (hardwareNum.exp (fneg (fdiv one (fmul Config.timeConstant[p] s.dsp.fs))))
    exec (.smoothCoef p) s =
      .next { s with dsp := { s.dsp with smooth := s.dsp.smooth.set p ⟨m.cur, coeff⟩ } } ∧
    exec (.smoothTick p) s =
      .next { s with dsp := { s.dsp with smooth := s.dsp.smooth.set p ⟨v, m.coeff⟩ }, wire := .real v } ∧
    exec (.smoothSnap p) s = .next { s with dsp := { s.dsp with smooth := s.dsp.smooth.set p ⟨tgt, m.coeff⟩ } }

/-- R92(a): a smoother at its target stays there exactly (for a target that is finite and not `-0.0`, and a
coefficient that is finite and not negative). -/
def Obligations.SmootherAtItsTargetStays : Prop :=
  ∀ (s : State) (p : Fin 7),
    widen32 s.holder[p.castSucc] = s.dsp.smooth[p].cur → finite s.dsp.smooth[p].cur = true →
    s.dsp.smooth[p].cur ≠ negZero → finite s.dsp.smooth[p].coeff = true →
    F64.neg? s.dsp.smooth[p].coeff = false →
    ∃ t : State, exec (.smoothTick p) s = .next t ∧ t.dsp = s.dsp

/-- R91: for a legal sample rate the coefficient is a number from 0 to 1. -/
def Obligations.SmootherCoefficientIsAFraction : Prop :=
  ∀ (s : State) (p : Fin 7), legalFs s.dsp.fs = true →
    ∃ t : State, exec (.smoothCoef p) s = .next t ∧
      fge t.dsp.smooth[p].coeff posZero = true ∧ fle t.dsp.smooth[p].coeff one = true

/-! ### The filters -/

/-- 41_resonant_filter.md R103 to R106, R138 to R140: what the coefficient operations answer (in `wire`, log 18), line
by line, changing nothing else. -/
def Obligations.CoefficientOperationsAnswerTheirFormulas : Prop :=
  ∀ (s : State) (f q : F64) (r : RawSet),
    let fs := s.dsp.fs
    let f1 := if fgt f Config.fMinHz then f else Config.fMinHz
    let top := fmul Config.fNyqFrac fs
    let w0 := fdiv (fmul Config.twoPi f) fs
    let cw := hardwareNum.cos w0
    let sw := hardwareNum.sin w0
    let alpha := fdiv sw (fmul two q)
    let low : RawSet :=
      { b0 := fdiv (fsub one cw) two, b1 := fsub one cw, b2 := fdiv (fsub one cw) two
        a0 := fadd one alpha, a1 := fmul negTwo cw, a2 := fsub one alpha }
    let high : RawSet :=
      { b0 := fdiv (fadd one cw) two, b1 := fneg (fadd one cw), b2 := fdiv (fadd one cw) two
        a0 := fadd one alpha, a1 := fmul negTwo cw, a2 := fsub one alpha }
    let k : Coefs := ⟨fdiv r.b0 r.a0, fdiv r.b1 r.a0, fdiv r.b2 r.a0, fdiv r.a1 r.a0, fdiv r.a2 r.a0⟩
    exec (.bqClamp f q) s =
      .next { s with wire := .pair (if flt f1 top then f1 else top) (clamp q Config.qMin Config.qMax) } ∧
    exec (.bqCoefLp f q) s = .next { s with wire := .raw low } ∧
    exec (.bqCoefHp f q) s = .next { s with wire := .raw high } ∧
    exec (.bqNorm r) s = .next { s with wire := .coefs k }

/-- R103(a): for a legal sample rate BQ.CLAMP answers a frequency above 0 and at most `0.49·fs`, whatever it is given,
a NaN included. The answer is read out of `wire`, the model's own field (log 18, DESIGN CHOICE). -/
def Obligations.ClampedFrequencyIsUsable : Prop :=
  ∀ (s : State) (f q : F64), legalFs s.dsp.fs = true →
    ∃ (t : State) (f' q' : F64), exec (.bqClamp f q) s = .next t ∧ t.wire = .pair f' q' ∧
      fgt f' posZero = true ∧ fle f' (fmul Config.fNyqFrac s.dsp.fs) = true

/-- R107: BQ.CHECK stores the set if all five members are finite and the unity-pass set if not; the instance's
histories and everything else stay. -/
def Obligations.CheckStoresTheSetOrUnityPass : Prop :=
  ∀ (s : State) (F : FilterId) (k : Coefs),
    let ok := finite k.b0 = true ∧ finite k.b1 = true ∧ finite k.b2 = true ∧ finite k.a1 = true ∧ finite k.a2 = true
    (ok → exec (.bqCheck F k) s =
      .next { s with dsp := s.dsp.setFilter F ⟨k, (s.dsp.filter F).h⟩ }) ∧
    (¬ ok → exec (.bqCheck F k) s =
      .next { s with dsp := s.dsp.setFilter F ⟨⟨one, posZero, posZero, posZero, posZero⟩, (s.dsp.filter F).h⟩ })

/-- R108: BQ.STEP answers the conditioned sum of the difference equation and shifts the history of its channel of its
instance, and changes nothing else: not the coefficients, not the other channel, not another instance. -/
def Obligations.BiquadStepIsTheDifferenceEquation : Prop :=
  ∀ (s : State) (F : FilterId) (c : Chan) (x : F64),
    let k := (s.dsp.filter F).k
    let h := (s.dsp.filter F).h.get c
    let acc := fsub (fsub (fadd (fadd (fmul k.b0 x) (fmul k.b1 h.x1)) (fmul k.b2 h.x2)) (fmul k.a1 h.y1))
      (fmul k.a2 h.y2)
    ∃ t : State, exec (.bqStep F c x) s = .next t ∧ t = { s with dsp := t.dsp, wire := .real (Machine.cond acc) } ∧
      settled (Machine.cond acc) = true ∧
      (t.dsp.filter F).h.get c = ⟨x, h.x1, Machine.cond acc, h.y1⟩ ∧ (t.dsp.filter F).k = k ∧
      (∀ e : Chan, e ≠ c → (t.dsp.filter F).h.get e = (s.dsp.filter F).h.get e) ∧
      (∀ G : FilterId, G ≠ F → t.dsp.filter G = s.dsp.filter G) ∧
      t.dsp = s.dsp.setFilter F (t.dsp.filter F)

/-- R109, 42_saturation.md R126: BQ.RESET makes an instance the unity-pass set with histories of `+0.0` in both
channels; SAT.RESET the held values 1.0 with a history of `+0.0`; nothing else changes. -/
def Obligations.StageResets : Prop :=
  ∀ (s : State) (F : FilterId),
    let zeros : Hist := ⟨posZero, posZero, posZero, posZero⟩
    exec (.bqReset F) s = .next { s with
      dsp := s.dsp.setFilter F ⟨⟨one, posZero, posZero, posZero, posZero⟩, ⟨zeros, zeros⟩⟩ } ∧
    exec .satReset s = .next { s with dsp := { s.dsp with sat := ⟨one, one, one, ⟨posZero, posZero⟩⟩ } }

/-! ### Saturation and tone -/

/-- 42_saturation.md R122: what SAT.SET stores; the history and everything else stay. -/
def Obligations.SaturationSetFollowsItsFormulas : Prop :=
  ∀ (s : State) (drv : F64),
    let d := clamp drv posZero one
    let g := fadd one (fmul Config.driveSpan d)
    let fc := fsub Config.satFcHi (fmul (fsub Config.satFcHi Config.satFcLo) d)
    let top := fmul Config.fNyqFrac s.dsp.fs
    let corner := if flt fc top then fc else top
    exec (.satSet drv) s = .next { s with dsp := { s.dsp with sat :=
      ⟨g, hardwareNum.tanh g, fsub one (hardwareNum.exp (fneg (fdiv (fmul Config.twoPi corner) s.dsp.fs))),
        s.dsp.sat.lp⟩ } }

/-- R122(a): for every drive that is a number the gain is from 1 to 10. -/
def Obligations.SaturationGainIsFromOneToTen : Prop :=
  ∀ (s : State) (drv : F64), isNaN drv = false →
    ∃ t : State, exec (.satSet drv) s = .next t ∧
      fge t.dsp.sat.g one = true ∧ fle t.dsp.sat.g 0x4024000000000000#64 = true

/-- R124: SAT.STEP, line by line with its flushes; the answer is the new history of its channel, and nothing else
changes. -/
def Obligations.SaturationStepFollowsItsLines : Prop :=
  ∀ (s : State) (c : Chan) (x : F64),
    let u := flush (fmul x s.dsp.sat.g)
    let v0 := flush (hardwareNum.tanh u)
    let v := if fgt s.dsp.sat.g Config.satEps then flush (fdiv v0 s.dsp.sat.norm) else v0
    let lp := s.dsp.sat.lp.get c
    let e := flush (fsub v lp)
    let m := flush (fmul s.dsp.sat.alp e)
    let y := Machine.cond (flush (fadd lp m))
    exec (.satStep c x) s = .next { s with
      dsp := { s.dsp with sat := { s.dsp.sat with lp := s.dsp.sat.lp.set c y } }, wire := .real y }

/-- 43_tone.md R138 to R140: what SHELF.PRE and the two shelf computations answer (in `wire`, log 18), line by line,
changing nothing else. -/
def Obligations.ShelfOperationsAnswerTheirFormulas : Prop :=
  ∀ (s : State) (f gainDb : F64),
    let fs := s.dsp.fs
    let f1 := if fgt f Config.fMinHz then f else Config.fMinHz
    let top := fmul Config.fNyqFrac fs
    let f' := if flt f1 top then f1 else top
    let A := hardwareNum.pow10 (fdiv gainDb forty)
    let w0 := fdiv (fmul Config.twoPi f') fs
    let cw := hardwareNum.cos w0
    let sw := hardwareNum.sin w0
    let alpha := fdiv sw (fmul two Config.qButterworth)
    let beta := fmul (fmul two (fsqrt A)) alpha
    let ap1 := fadd A one
    let am1 := fsub A one
    let m := fsub ap1 (fmul am1 cw)
    let p := fadd ap1 (fmul am1 cw)
    let low : RawSet :=
      { b0 := fmul A (fadd m beta), b1 := fmul (fmul two A) (fsub am1 (fmul ap1 cw)), b2 := fmul A (fsub m beta)
        a0 := fadd p beta, a1 := fmul negTwo (fadd am1 (fmul ap1 cw)), a2 := fsub p beta }
    let high : RawSet :=
      { b0 := fmul A (fadd p beta), b1 := fmul (fmul negTwo A) (fadd am1 (fmul ap1 cw)), b2 := fmul A (fsub p beta)
        a0 := fadd m beta, a1 := fmul two (fsub am1 (fmul ap1 cw)), a2 := fsub m beta }
    exec (.shelfPre f gainDb) s = .next { s with wire := .shelf ⟨f', A, w0, cw, sw, alpha, beta, ap1, am1, m, p⟩ } ∧
    exec (.shelfCoefLo f gainDb) s = .next { s with wire := .raw low } ∧
    exec (.shelfCoefHi f gainDb) s = .next { s with wire := .raw high }

/-- R137: TONE.SET stores the low shelf's set for `+gainDb` and the high shelf's for exactly `-gainDb`; the histories
and everything else stay. -/
def Obligations.ToneSetStoresBothShelves : Prop :=
  ∀ (s : State) (tone : F64),
    let gainDb := fmul (clamp tone negOne one) Config.toneDbSpan
    exec (.toneSet tone) s = .next { s with dsp := { s.dsp with
      lsf := ⟨checked (normalise (shelfLo hardwareNum s.dsp.fs Config.lowShelfHz gainDb)), s.dsp.lsf.h⟩
      hsf := ⟨checked (normalise (shelfHi hardwareNum s.dsp.fs Config.highShelfHz (fneg gainDb))), s.dsp.hsf.h⟩ } }

/-! ### Wow -/

/-- 44_wow.md R153: WOW.INIT stores the increment and the length for the active sample rate, the start phase and the
pointer, and silences both delay memories below `L`; nothing else changes. -/
def Obligations.WowInitSilencesTheDelayLine : Prop :=
  ∀ s : State, ∃ t : State, exec .wowInit s = .next t ∧ t = { s with dsp := t.dsp, dl := t.dl } ∧
    t.dsp = { s.dsp with
      phaseInc := fdiv (fmul Config.twoPi Config.lfoHz) s.dsp.fs
      len := (ceilF64 (fdiv (fmul Config.bufCapMs s.dsp.fs) thousand) + 1).toNat
      wowPhase := posZero, wowPtr := 0 } ∧
    ∀ (c : Chan) (k : Nat), t.readDl c k = if k < t.dsp.len then posZero else s.readDl c k

/-- R152: for every legal sample rate the length is from 2 to `DL_MAX = 9601`. -/
def Obligations.DelayLineLengthIsInRange : Prop :=
  ∀ fs : F64, legalFs fs = true → 2 ≤ lineLength fs ∧ lineLength fs ≤ 9601

/-- R154: WOW.LFO answers the sine of the phase before the advance and stores the phase advanced and wrapped; nothing
else changes. -/
def Obligations.OscillatorAdvancesAndWraps : Prop :=
  ∀ s : State,
    let q := fadd s.dsp.wowPhase s.dsp.phaseInc
    exec .wowLfo s = .next { s with
      dsp := { s.dsp with wowPhase := if fge q Config.twoPi then fsub q Config.twoPi else q }
      wire := .real (hardwareNum.sin s.dsp.wowPhase) }

/-- R154(c), 10_state.md R36: for a legal sample rate the phase stays in `[0, 2π)`. -/
def Obligations.PhaseStaysInRange : Prop :=
  ∀ s : State, legalFs s.dsp.fs = true → s.dsp.phaseInc = phaseIncOf s.dsp.fs → phaseInRange s = true →
    ∃ t : State, exec .wowLfo s = .next t ∧ phaseInRange t = true

/-- R155: WOW.DELAY answers (in `wire`, the model's own field, log 18), line by line, changing nothing else. -/
def Obligations.DelayFollowsItsLines : Prop :=
  ∀ (s : State) (lfo : F64),
    let depth := clamp s.dsp.smooth[(0 : Fin 7)].cur posZero one
    let ms := clamp (fadd Config.baseDelayMs (fmul (fmul lfo depth) Config.maxModMs)) posZero Config.bufCapMs
    let d0 := fdiv (fmul ms s.dsp.fs) thousand
    let d1 := if flt d0 Config.dMinSamples then Config.dMinSamples else d0
    let last := floatOf ((s.dsp.len : Int) - 1)
    let d := if fgt d1 last then last else d1
    exec (.wowDelay lfo) s =
      .next { s with wire := .delay (floorF64 d).toNat (fsub d (floatOf (floorF64 d))) }

/-- R155 lines 7 and 8: for a legal configuration, a smoothed depth that is finite and an oscillator value in `[-1, 1]`,
the integer delay is from 1 to `L - 1` and the fraction in `[0, 1)`: no read offset is zero or negative. The pair is
read out of `wire`, the model's own field (log 18, DESIGN CHOICE). -/
def Obligations.DelayIsInsideTheLine : Prop :=
  ∀ (s : State) (lfo : F64), configLegal s = true → finite s.dsp.smooth[(0 : Fin 7)].cur = true →
    fge lfo negOne = true → fle lfo one = true →
    ∃ (t : State) (i : Nat) (frac : F64), exec (.wowDelay lfo) s = .next t ∧ t.wire = .delay i frac ∧
      1 ≤ i ∧ i + 1 ≤ s.dsp.len ∧ fge frac posZero = true ∧ flt frac one = true

/-- R156 to R159: WOW.READ answers the interpolation of the two neighbours, changing nothing else; WOW.WRITE stores its
input at the write pointer and changes no other element; WOW.STEP reads, then writes; WOW.ADVANCE moves the pointer by
one modulo `L`. -/
def Obligations.DelayLineOperations : Prop :=
  ∀ (s : State) (c : Chan) (x : F64) (i : Nat) (frac : F64), memoriesOk s = true → 0 < s.dsp.len →
    let p0 := (((s.dsp.wowPtr : Int) - i) % s.dsp.len).toNat
    let p1 := (((s.dsp.wowPtr : Int) - i - 1) % s.dsp.len).toNat
    let a := s.readDl c p0
    let b := s.readDl c p1
    let y := Machine.cond (fadd a (fmul frac (fsub b a)))
    exec (.wowRead c i frac) s = .next { s with wire := .real y } ∧
    (∃ t : State, exec (.wowWrite c x) s = .next t ∧ t = { s with dl := t.dl } ∧
      ∀ (e : Chan) (k : Nat), t.readDl e k = if e = c ∧ k = s.dsp.wowPtr then x else s.readDl e k) ∧
    (∃ t : State, exec (.wowStep c x i frac) s = .next t ∧ t = { s with dl := t.dl, wire := .real y } ∧
      ∀ (e : Chan) (k : Nat), t.readDl e k = if e = c ∧ k = s.dsp.wowPtr then x else s.readDl e k) ∧
    exec .wowAdvance s = .next { s with dsp := { s.dsp with wowPtr := (s.dsp.wowPtr + 1) % s.dsp.len } }

/-! ### Conditioning -/

/-- 45_signal_chain.md R180, R181, R200: IN.COND answers a settled value for every word and OUT.COND, of a settled
value, a finite word that is neither `-0.0` nor subnormal; neither changes anything else. -/
def Obligations.ConditioningCleansBothEnds : Prop :=
  ∀ (s : State) (w : Word) (x : F64),
    (∃ v : F64, exec (.inCond w) s = .next { s with wire := .real v } ∧ v = Machine.cond (widen32 w) ∧ settled v = true) ∧
    (∃ r : Word, exec (.outCond x) s = .next { s with wire := .word r } ∧
      r = (if finite32 (round32 x) then round32 x else 0x00000000#32) ∧
      (settled x = true → cleanSample r = true))

/-! ### Invariants -/

/-- The machine right after reset satisfies the invariant. -/
def Obligations.ResetSatisfiesTheInvariant : Prop := MachineInvariant State.reset

/-- 20_memory.md R57: whatever agent moves, every step keeps the invariant: canonical memories within their depths,
legal holders, a legal error record and, on a prepared core, a legal configuration, no NaN or infinity in any
coefficient, history or delay element, and a legal block context. -/
def Obligations.EveryStepKeepsTheInvariant : Prop := ∀ s t : State, MachineInvariant s → step s = .next t → MachineInvariant t
end

