-- ==== Sys2Proof/Laws/State.lean ====
section
/-! SUPPORT. One lemma for each field of State and each operation that updates it, so that no proof unfolds a record
update. -/
namespace Sys2Proof.Machine

variable (s : State)

/-! ### setCoefs -/

@[simp] theorem State.setCoefs_lc (F : FilterId) (k : Coefs) : (s.setCoefs F k).lc = s.lc := rfl
@[simp] theorem State.setCoefs_ctx (F : FilterId) (k : Coefs) : (s.setCoefs F k).ctx = s.ctx := rfl
@[simp] theorem State.setCoefs_cfgErr (F : FilterId) (k : Coefs) : (s.setCoefs F k).cfgErr = s.cfgErr := rfl
@[simp] theorem State.setCoefs_seqErr (F : FilterId) (k : Coefs) : (s.setCoefs F k).seqErr = s.seqErr := rfl
@[simp] theorem State.setCoefs_errCode (F : FilterId) (k : Coefs) : (s.setCoefs F k).errCode = s.errCode := rfl
@[simp] theorem State.setCoefs_cfgFsLo (F : FilterId) (k : Coefs) : (s.setCoefs F k).cfgFsLo = s.cfgFsLo := rfl
@[simp] theorem State.setCoefs_cfgFsHi (F : FilterId) (k : Coefs) : (s.setCoefs F k).cfgFsHi = s.cfgFsHi := rfl
@[simp] theorem State.setCoefs_cfgMaxBlk (F : FilterId) (k : Coefs) : (s.setCoefs F k).cfgMaxBlk = s.cfgMaxBlk := rfl
@[simp] theorem State.setCoefs_cfgNch (F : FilterId) (k : Coefs) : (s.setCoefs F k).cfgNch = s.cfgNch := rfl
@[simp] theorem State.setCoefs_numSamp (F : FilterId) (k : Coefs) : (s.setCoefs F k).numSamp = s.numSamp := rfl
@[simp] theorem State.setCoefs_holder (F : FilterId) (k : Coefs) : (s.setCoefs F k).holder = s.holder := rfl
@[simp] theorem State.setCoefs_dsp (F : FilterId) (k : Coefs) : (s.setCoefs F k).dsp = s.dsp.setFilter F ⟨k, (s.dsp.filter F).h⟩ := rfl
@[simp] theorem State.setCoefs_blk (F : FilterId) (k : Coefs) : (s.setCoefs F k).blk = s.blk := rfl
@[simp] theorem State.setCoefs_dl (F : FilterId) (k : Coefs) : (s.setCoefs F k).dl = s.dl := rfl
@[simp] theorem State.setCoefs_portA (F : FilterId) (k : Coefs) : (s.setCoefs F k).portA = s.portA := rfl
@[simp] theorem State.setCoefs_portC (F : FilterId) (k : Coefs) : (s.setCoefs F k).portC = s.portC := rfl
@[simp] theorem State.setCoefs_schedule (F : FilterId) (k : Coefs) : (s.setCoefs F k).schedule = s.schedule := rfl
@[simp] theorem State.setCoefs_replyA (F : FilterId) (k : Coefs) : (s.setCoefs F k).replyA = s.replyA := rfl
@[simp] theorem State.setCoefs_replyC (F : FilterId) (k : Coefs) : (s.setCoefs F k).replyC = s.replyC := rfl
@[simp] theorem State.setCoefs_wire (F : FilterId) (k : Coefs) : (s.setCoefs F k).wire = s.wire := rfl
@[simp] theorem State.setCoefs_free (F : FilterId) (k : Coefs) : (s.setCoefs F k).free = s.free := rfl

/-! ### setHist -/

@[simp] theorem State.setHist_lc (F : FilterId) (c : Chan) (h : Hist) : (s.setHist F c h).lc = s.lc := rfl
@[simp] theorem State.setHist_ctx (F : FilterId) (c : Chan) (h : Hist) : (s.setHist F c h).ctx = s.ctx := rfl
@[simp] theorem State.setHist_cfgErr (F : FilterId) (c : Chan) (h : Hist) : (s.setHist F c h).cfgErr = s.cfgErr := rfl
@[simp] theorem State.setHist_seqErr (F : FilterId) (c : Chan) (h : Hist) : (s.setHist F c h).seqErr = s.seqErr := rfl
@[simp] theorem State.setHist_errCode (F : FilterId) (c : Chan) (h : Hist) : (s.setHist F c h).errCode = s.errCode := rfl
@[simp] theorem State.setHist_cfgFsLo (F : FilterId) (c : Chan) (h : Hist) : (s.setHist F c h).cfgFsLo = s.cfgFsLo := rfl
@[simp] theorem State.setHist_cfgFsHi (F : FilterId) (c : Chan) (h : Hist) : (s.setHist F c h).cfgFsHi = s.cfgFsHi := rfl
@[simp] theorem State.setHist_cfgMaxBlk (F : FilterId) (c : Chan) (h : Hist) : (s.setHist F c h).cfgMaxBlk = s.cfgMaxBlk := rfl
@[simp] theorem State.setHist_cfgNch (F : FilterId) (c : Chan) (h : Hist) : (s.setHist F c h).cfgNch = s.cfgNch := rfl
@[simp] theorem State.setHist_numSamp (F : FilterId) (c : Chan) (h : Hist) : (s.setHist F c h).numSamp = s.numSamp := rfl
@[simp] theorem State.setHist_holder (F : FilterId) (c : Chan) (h : Hist) : (s.setHist F c h).holder = s.holder := rfl
@[simp] theorem State.setHist_dsp (F : FilterId) (c : Chan) (h : Hist) : (s.setHist F c h).dsp = s.dsp.setFilter F ⟨(s.dsp.filter F).k, (s.dsp.filter F).h.set c h⟩ := rfl
@[simp] theorem State.setHist_blk (F : FilterId) (c : Chan) (h : Hist) : (s.setHist F c h).blk = s.blk := rfl
@[simp] theorem State.setHist_dl (F : FilterId) (c : Chan) (h : Hist) : (s.setHist F c h).dl = s.dl := rfl
@[simp] theorem State.setHist_portA (F : FilterId) (c : Chan) (h : Hist) : (s.setHist F c h).portA = s.portA := rfl
@[simp] theorem State.setHist_portC (F : FilterId) (c : Chan) (h : Hist) : (s.setHist F c h).portC = s.portC := rfl
@[simp] theorem State.setHist_schedule (F : FilterId) (c : Chan) (h : Hist) : (s.setHist F c h).schedule = s.schedule := rfl
@[simp] theorem State.setHist_replyA (F : FilterId) (c : Chan) (h : Hist) : (s.setHist F c h).replyA = s.replyA := rfl
@[simp] theorem State.setHist_replyC (F : FilterId) (c : Chan) (h : Hist) : (s.setHist F c h).replyC = s.replyC := rfl
@[simp] theorem State.setHist_wire (F : FilterId) (c : Chan) (h : Hist) : (s.setHist F c h).wire = s.wire := rfl
@[simp] theorem State.setHist_free (F : FilterId) (c : Chan) (h : Hist) : (s.setHist F c h).free = s.free := rfl

/-! ### setSmoother -/

@[simp] theorem State.setSmoother_lc (p : Fin 7) (v : Smoother) : (s.setSmoother p v).lc = s.lc := rfl
@[simp] theorem State.setSmoother_ctx (p : Fin 7) (v : Smoother) : (s.setSmoother p v).ctx = s.ctx := rfl
@[simp] theorem State.setSmoother_cfgErr (p : Fin 7) (v : Smoother) : (s.setSmoother p v).cfgErr = s.cfgErr := rfl
@[simp] theorem State.setSmoother_seqErr (p : Fin 7) (v : Smoother) : (s.setSmoother p v).seqErr = s.seqErr := rfl
@[simp] theorem State.setSmoother_errCode (p : Fin 7) (v : Smoother) : (s.setSmoother p v).errCode = s.errCode := rfl
@[simp] theorem State.setSmoother_cfgFsLo (p : Fin 7) (v : Smoother) : (s.setSmoother p v).cfgFsLo = s.cfgFsLo := rfl
@[simp] theorem State.setSmoother_cfgFsHi (p : Fin 7) (v : Smoother) : (s.setSmoother p v).cfgFsHi = s.cfgFsHi := rfl
@[simp] theorem State.setSmoother_cfgMaxBlk (p : Fin 7) (v : Smoother) : (s.setSmoother p v).cfgMaxBlk = s.cfgMaxBlk := rfl
@[simp] theorem State.setSmoother_cfgNch (p : Fin 7) (v : Smoother) : (s.setSmoother p v).cfgNch = s.cfgNch := rfl
@[simp] theorem State.setSmoother_numSamp (p : Fin 7) (v : Smoother) : (s.setSmoother p v).numSamp = s.numSamp := rfl
@[simp] theorem State.setSmoother_holder (p : Fin 7) (v : Smoother) : (s.setSmoother p v).holder = s.holder := rfl
@[simp] theorem State.setSmoother_dsp (p : Fin 7) (v : Smoother) : (s.setSmoother p v).dsp = { s.dsp with smooth := s.dsp.smooth.set p v } := rfl
@[simp] theorem State.setSmoother_blk (p : Fin 7) (v : Smoother) : (s.setSmoother p v).blk = s.blk := rfl
@[simp] theorem State.setSmoother_dl (p : Fin 7) (v : Smoother) : (s.setSmoother p v).dl = s.dl := rfl
@[simp] theorem State.setSmoother_portA (p : Fin 7) (v : Smoother) : (s.setSmoother p v).portA = s.portA := rfl
@[simp] theorem State.setSmoother_portC (p : Fin 7) (v : Smoother) : (s.setSmoother p v).portC = s.portC := rfl
@[simp] theorem State.setSmoother_schedule (p : Fin 7) (v : Smoother) : (s.setSmoother p v).schedule = s.schedule := rfl
@[simp] theorem State.setSmoother_replyA (p : Fin 7) (v : Smoother) : (s.setSmoother p v).replyA = s.replyA := rfl
@[simp] theorem State.setSmoother_replyC (p : Fin 7) (v : Smoother) : (s.setSmoother p v).replyC = s.replyC := rfl
@[simp] theorem State.setSmoother_wire (p : Fin 7) (v : Smoother) : (s.setSmoother p v).wire = s.wire := rfl
@[simp] theorem State.setSmoother_free (p : Fin 7) (v : Smoother) : (s.setSmoother p v).free = s.free := rfl

/-! ### setSat -/

@[simp] theorem State.setSat_lc (v : Saturation) : (s.setSat v).lc = s.lc := rfl
@[simp] theorem State.setSat_ctx (v : Saturation) : (s.setSat v).ctx = s.ctx := rfl
@[simp] theorem State.setSat_cfgErr (v : Saturation) : (s.setSat v).cfgErr = s.cfgErr := rfl
@[simp] theorem State.setSat_seqErr (v : Saturation) : (s.setSat v).seqErr = s.seqErr := rfl
@[simp] theorem State.setSat_errCode (v : Saturation) : (s.setSat v).errCode = s.errCode := rfl
@[simp] theorem State.setSat_cfgFsLo (v : Saturation) : (s.setSat v).cfgFsLo = s.cfgFsLo := rfl
@[simp] theorem State.setSat_cfgFsHi (v : Saturation) : (s.setSat v).cfgFsHi = s.cfgFsHi := rfl
@[simp] theorem State.setSat_cfgMaxBlk (v : Saturation) : (s.setSat v).cfgMaxBlk = s.cfgMaxBlk := rfl
@[simp] theorem State.setSat_cfgNch (v : Saturation) : (s.setSat v).cfgNch = s.cfgNch := rfl
@[simp] theorem State.setSat_numSamp (v : Saturation) : (s.setSat v).numSamp = s.numSamp := rfl
@[simp] theorem State.setSat_holder (v : Saturation) : (s.setSat v).holder = s.holder := rfl
@[simp] theorem State.setSat_dsp (v : Saturation) : (s.setSat v).dsp = { s.dsp with sat := v } := rfl
@[simp] theorem State.setSat_blk (v : Saturation) : (s.setSat v).blk = s.blk := rfl
@[simp] theorem State.setSat_dl (v : Saturation) : (s.setSat v).dl = s.dl := rfl
@[simp] theorem State.setSat_portA (v : Saturation) : (s.setSat v).portA = s.portA := rfl
@[simp] theorem State.setSat_portC (v : Saturation) : (s.setSat v).portC = s.portC := rfl
@[simp] theorem State.setSat_schedule (v : Saturation) : (s.setSat v).schedule = s.schedule := rfl
@[simp] theorem State.setSat_replyA (v : Saturation) : (s.setSat v).replyA = s.replyA := rfl
@[simp] theorem State.setSat_replyC (v : Saturation) : (s.setSat v).replyC = s.replyC := rfl
@[simp] theorem State.setSat_wire (v : Saturation) : (s.setSat v).wire = s.wire := rfl
@[simp] theorem State.setSat_free (v : Saturation) : (s.setSat v).free = s.free := rfl

/-! ### setHolder -/

@[simp] theorem State.setHolder_lc (id : Fin 8) (w : Word) : (s.setHolder id w).lc = s.lc := rfl
@[simp] theorem State.setHolder_ctx (id : Fin 8) (w : Word) : (s.setHolder id w).ctx = s.ctx := rfl
@[simp] theorem State.setHolder_cfgErr (id : Fin 8) (w : Word) : (s.setHolder id w).cfgErr = s.cfgErr := rfl
@[simp] theorem State.setHolder_seqErr (id : Fin 8) (w : Word) : (s.setHolder id w).seqErr = s.seqErr := rfl
@[simp] theorem State.setHolder_errCode (id : Fin 8) (w : Word) : (s.setHolder id w).errCode = s.errCode := rfl
@[simp] theorem State.setHolder_cfgFsLo (id : Fin 8) (w : Word) : (s.setHolder id w).cfgFsLo = s.cfgFsLo := rfl
@[simp] theorem State.setHolder_cfgFsHi (id : Fin 8) (w : Word) : (s.setHolder id w).cfgFsHi = s.cfgFsHi := rfl
@[simp] theorem State.setHolder_cfgMaxBlk (id : Fin 8) (w : Word) : (s.setHolder id w).cfgMaxBlk = s.cfgMaxBlk := rfl
@[simp] theorem State.setHolder_cfgNch (id : Fin 8) (w : Word) : (s.setHolder id w).cfgNch = s.cfgNch := rfl
@[simp] theorem State.setHolder_numSamp (id : Fin 8) (w : Word) : (s.setHolder id w).numSamp = s.numSamp := rfl
@[simp] theorem State.setHolder_holder (id : Fin 8) (w : Word) : (s.setHolder id w).holder = s.holder.set id w := rfl
@[simp] theorem State.setHolder_dsp (id : Fin 8) (w : Word) : (s.setHolder id w).dsp = s.dsp := rfl
@[simp] theorem State.setHolder_blk (id : Fin 8) (w : Word) : (s.setHolder id w).blk = s.blk := rfl
@[simp] theorem State.setHolder_dl (id : Fin 8) (w : Word) : (s.setHolder id w).dl = s.dl := rfl
@[simp] theorem State.setHolder_portA (id : Fin 8) (w : Word) : (s.setHolder id w).portA = s.portA := rfl
@[simp] theorem State.setHolder_portC (id : Fin 8) (w : Word) : (s.setHolder id w).portC = s.portC := rfl
@[simp] theorem State.setHolder_schedule (id : Fin 8) (w : Word) : (s.setHolder id w).schedule = s.schedule := rfl
@[simp] theorem State.setHolder_replyA (id : Fin 8) (w : Word) : (s.setHolder id w).replyA = s.replyA := rfl
@[simp] theorem State.setHolder_replyC (id : Fin 8) (w : Word) : (s.setHolder id w).replyC = s.replyC := rfl
@[simp] theorem State.setHolder_wire (id : Fin 8) (w : Word) : (s.setHolder id w).wire = s.wire := rfl
@[simp] theorem State.setHolder_free (id : Fin 8) (w : Word) : (s.setHolder id w).free = s.free := rfl

/-! ### writeBlk -/

@[simp] theorem State.writeBlk_lc (c : Chan) (i : Nat) (w : Word) : (s.writeBlk c i w).lc = s.lc := rfl
@[simp] theorem State.writeBlk_ctx (c : Chan) (i : Nat) (w : Word) : (s.writeBlk c i w).ctx = s.ctx := rfl
@[simp] theorem State.writeBlk_cfgErr (c : Chan) (i : Nat) (w : Word) : (s.writeBlk c i w).cfgErr = s.cfgErr := rfl
@[simp] theorem State.writeBlk_seqErr (c : Chan) (i : Nat) (w : Word) : (s.writeBlk c i w).seqErr = s.seqErr := rfl
@[simp] theorem State.writeBlk_errCode (c : Chan) (i : Nat) (w : Word) : (s.writeBlk c i w).errCode = s.errCode := rfl
@[simp] theorem State.writeBlk_cfgFsLo (c : Chan) (i : Nat) (w : Word) : (s.writeBlk c i w).cfgFsLo = s.cfgFsLo := rfl
@[simp] theorem State.writeBlk_cfgFsHi (c : Chan) (i : Nat) (w : Word) : (s.writeBlk c i w).cfgFsHi = s.cfgFsHi := rfl
@[simp] theorem State.writeBlk_cfgMaxBlk (c : Chan) (i : Nat) (w : Word) : (s.writeBlk c i w).cfgMaxBlk = s.cfgMaxBlk := rfl
@[simp] theorem State.writeBlk_cfgNch (c : Chan) (i : Nat) (w : Word) : (s.writeBlk c i w).cfgNch = s.cfgNch := rfl
@[simp] theorem State.writeBlk_numSamp (c : Chan) (i : Nat) (w : Word) : (s.writeBlk c i w).numSamp = s.numSamp := rfl
@[simp] theorem State.writeBlk_holder (c : Chan) (i : Nat) (w : Word) : (s.writeBlk c i w).holder = s.holder := rfl
@[simp] theorem State.writeBlk_dsp (c : Chan) (i : Nat) (w : Word) : (s.writeBlk c i w).dsp = s.dsp := rfl
@[simp] theorem State.writeBlk_blk (c : Chan) (i : Nat) (w : Word) : (s.writeBlk c i w).blk = s.blk.set c (Memory.write (s.blk.get c) i w) := rfl
@[simp] theorem State.writeBlk_dl (c : Chan) (i : Nat) (w : Word) : (s.writeBlk c i w).dl = s.dl := rfl
@[simp] theorem State.writeBlk_portA (c : Chan) (i : Nat) (w : Word) : (s.writeBlk c i w).portA = s.portA := rfl
@[simp] theorem State.writeBlk_portC (c : Chan) (i : Nat) (w : Word) : (s.writeBlk c i w).portC = s.portC := rfl
@[simp] theorem State.writeBlk_schedule (c : Chan) (i : Nat) (w : Word) : (s.writeBlk c i w).schedule = s.schedule := rfl
@[simp] theorem State.writeBlk_replyA (c : Chan) (i : Nat) (w : Word) : (s.writeBlk c i w).replyA = s.replyA := rfl
@[simp] theorem State.writeBlk_replyC (c : Chan) (i : Nat) (w : Word) : (s.writeBlk c i w).replyC = s.replyC := rfl
@[simp] theorem State.writeBlk_wire (c : Chan) (i : Nat) (w : Word) : (s.writeBlk c i w).wire = s.wire := rfl
@[simp] theorem State.writeBlk_free (c : Chan) (i : Nat) (w : Word) : (s.writeBlk c i w).free = s.free := rfl

/-! ### writeDl -/

@[simp] theorem State.writeDl_lc (c : Chan) (k : Nat) (v : F64) : (s.writeDl c k v).lc = s.lc := rfl
@[simp] theorem State.writeDl_ctx (c : Chan) (k : Nat) (v : F64) : (s.writeDl c k v).ctx = s.ctx := rfl
@[simp] theorem State.writeDl_cfgErr (c : Chan) (k : Nat) (v : F64) : (s.writeDl c k v).cfgErr = s.cfgErr := rfl
@[simp] theorem State.writeDl_seqErr (c : Chan) (k : Nat) (v : F64) : (s.writeDl c k v).seqErr = s.seqErr := rfl
@[simp] theorem State.writeDl_errCode (c : Chan) (k : Nat) (v : F64) : (s.writeDl c k v).errCode = s.errCode := rfl
@[simp] theorem State.writeDl_cfgFsLo (c : Chan) (k : Nat) (v : F64) : (s.writeDl c k v).cfgFsLo = s.cfgFsLo := rfl
@[simp] theorem State.writeDl_cfgFsHi (c : Chan) (k : Nat) (v : F64) : (s.writeDl c k v).cfgFsHi = s.cfgFsHi := rfl
@[simp] theorem State.writeDl_cfgMaxBlk (c : Chan) (k : Nat) (v : F64) : (s.writeDl c k v).cfgMaxBlk = s.cfgMaxBlk := rfl
@[simp] theorem State.writeDl_cfgNch (c : Chan) (k : Nat) (v : F64) : (s.writeDl c k v).cfgNch = s.cfgNch := rfl
@[simp] theorem State.writeDl_numSamp (c : Chan) (k : Nat) (v : F64) : (s.writeDl c k v).numSamp = s.numSamp := rfl
@[simp] theorem State.writeDl_holder (c : Chan) (k : Nat) (v : F64) : (s.writeDl c k v).holder = s.holder := rfl
@[simp] theorem State.writeDl_dsp (c : Chan) (k : Nat) (v : F64) : (s.writeDl c k v).dsp = s.dsp := rfl
@[simp] theorem State.writeDl_blk (c : Chan) (k : Nat) (v : F64) : (s.writeDl c k v).blk = s.blk := rfl
@[simp] theorem State.writeDl_dl (c : Chan) (k : Nat) (v : F64) : (s.writeDl c k v).dl = s.dl.set c (Memory.write (s.dl.get c) k v) := rfl
@[simp] theorem State.writeDl_portA (c : Chan) (k : Nat) (v : F64) : (s.writeDl c k v).portA = s.portA := rfl
@[simp] theorem State.writeDl_portC (c : Chan) (k : Nat) (v : F64) : (s.writeDl c k v).portC = s.portC := rfl
@[simp] theorem State.writeDl_schedule (c : Chan) (k : Nat) (v : F64) : (s.writeDl c k v).schedule = s.schedule := rfl
@[simp] theorem State.writeDl_replyA (c : Chan) (k : Nat) (v : F64) : (s.writeDl c k v).replyA = s.replyA := rfl
@[simp] theorem State.writeDl_replyC (c : Chan) (k : Nat) (v : F64) : (s.writeDl c k v).replyC = s.replyC := rfl
@[simp] theorem State.writeDl_wire (c : Chan) (k : Nat) (v : F64) : (s.writeDl c k v).wire = s.wire := rfl
@[simp] theorem State.writeDl_free (c : Chan) (k : Nat) (v : F64) : (s.writeDl c k v).free = s.free := rfl

/-! ### answerA -/

@[simp] theorem State.answerA_lc (w : Word) : (s.answerA w).lc = s.lc := rfl
@[simp] theorem State.answerA_ctx (w : Word) : (s.answerA w).ctx = s.ctx := rfl
@[simp] theorem State.answerA_cfgErr (w : Word) : (s.answerA w).cfgErr = s.cfgErr := rfl
@[simp] theorem State.answerA_seqErr (w : Word) : (s.answerA w).seqErr = s.seqErr := rfl
@[simp] theorem State.answerA_errCode (w : Word) : (s.answerA w).errCode = s.errCode := rfl
@[simp] theorem State.answerA_cfgFsLo (w : Word) : (s.answerA w).cfgFsLo = s.cfgFsLo := rfl
@[simp] theorem State.answerA_cfgFsHi (w : Word) : (s.answerA w).cfgFsHi = s.cfgFsHi := rfl
@[simp] theorem State.answerA_cfgMaxBlk (w : Word) : (s.answerA w).cfgMaxBlk = s.cfgMaxBlk := rfl
@[simp] theorem State.answerA_cfgNch (w : Word) : (s.answerA w).cfgNch = s.cfgNch := rfl
@[simp] theorem State.answerA_numSamp (w : Word) : (s.answerA w).numSamp = s.numSamp := rfl
@[simp] theorem State.answerA_holder (w : Word) : (s.answerA w).holder = s.holder := rfl
@[simp] theorem State.answerA_dsp (w : Word) : (s.answerA w).dsp = s.dsp := rfl
@[simp] theorem State.answerA_blk (w : Word) : (s.answerA w).blk = s.blk := rfl
@[simp] theorem State.answerA_dl (w : Word) : (s.answerA w).dl = s.dl := rfl
@[simp] theorem State.answerA_portA (w : Word) : (s.answerA w).portA = s.portA := rfl
@[simp] theorem State.answerA_portC (w : Word) : (s.answerA w).portC = s.portC := rfl
@[simp] theorem State.answerA_schedule (w : Word) : (s.answerA w).schedule = s.schedule := rfl
@[simp] theorem State.answerA_replyA (w : Word) : (s.answerA w).replyA = w := rfl
@[simp] theorem State.answerA_replyC (w : Word) : (s.answerA w).replyC = s.replyC := rfl
@[simp] theorem State.answerA_wire (w : Word) : (s.answerA w).wire = s.wire := rfl
@[simp] theorem State.answerA_free (w : Word) : (s.answerA w).free = s.free := rfl

/-! ### answerC -/

@[simp] theorem State.answerC_lc (w : Word) : (s.answerC w).lc = s.lc := rfl
@[simp] theorem State.answerC_ctx (w : Word) : (s.answerC w).ctx = s.ctx := rfl
@[simp] theorem State.answerC_cfgErr (w : Word) : (s.answerC w).cfgErr = s.cfgErr := rfl
@[simp] theorem State.answerC_seqErr (w : Word) : (s.answerC w).seqErr = s.seqErr := rfl
@[simp] theorem State.answerC_errCode (w : Word) : (s.answerC w).errCode = s.errCode := rfl
@[simp] theorem State.answerC_cfgFsLo (w : Word) : (s.answerC w).cfgFsLo = s.cfgFsLo := rfl
@[simp] theorem State.answerC_cfgFsHi (w : Word) : (s.answerC w).cfgFsHi = s.cfgFsHi := rfl
@[simp] theorem State.answerC_cfgMaxBlk (w : Word) : (s.answerC w).cfgMaxBlk = s.cfgMaxBlk := rfl
@[simp] theorem State.answerC_cfgNch (w : Word) : (s.answerC w).cfgNch = s.cfgNch := rfl
@[simp] theorem State.answerC_numSamp (w : Word) : (s.answerC w).numSamp = s.numSamp := rfl
@[simp] theorem State.answerC_holder (w : Word) : (s.answerC w).holder = s.holder := rfl
@[simp] theorem State.answerC_dsp (w : Word) : (s.answerC w).dsp = s.dsp := rfl
@[simp] theorem State.answerC_blk (w : Word) : (s.answerC w).blk = s.blk := rfl
@[simp] theorem State.answerC_dl (w : Word) : (s.answerC w).dl = s.dl := rfl
@[simp] theorem State.answerC_portA (w : Word) : (s.answerC w).portA = s.portA := rfl
@[simp] theorem State.answerC_portC (w : Word) : (s.answerC w).portC = s.portC := rfl
@[simp] theorem State.answerC_schedule (w : Word) : (s.answerC w).schedule = s.schedule := rfl
@[simp] theorem State.answerC_replyA (w : Word) : (s.answerC w).replyA = s.replyA := rfl
@[simp] theorem State.answerC_replyC (w : Word) : (s.answerC w).replyC = w := rfl
@[simp] theorem State.answerC_wire (w : Word) : (s.answerC w).wire = s.wire := rfl
@[simp] theorem State.answerC_free (w : Word) : (s.answerC w).free = s.free := rfl

/-! ### answer -/

@[simp] theorem State.answer_lc (v : Wire) : (s.answer v).lc = s.lc := rfl
@[simp] theorem State.answer_ctx (v : Wire) : (s.answer v).ctx = s.ctx := rfl
@[simp] theorem State.answer_cfgErr (v : Wire) : (s.answer v).cfgErr = s.cfgErr := rfl
@[simp] theorem State.answer_seqErr (v : Wire) : (s.answer v).seqErr = s.seqErr := rfl
@[simp] theorem State.answer_errCode (v : Wire) : (s.answer v).errCode = s.errCode := rfl
@[simp] theorem State.answer_cfgFsLo (v : Wire) : (s.answer v).cfgFsLo = s.cfgFsLo := rfl
@[simp] theorem State.answer_cfgFsHi (v : Wire) : (s.answer v).cfgFsHi = s.cfgFsHi := rfl
@[simp] theorem State.answer_cfgMaxBlk (v : Wire) : (s.answer v).cfgMaxBlk = s.cfgMaxBlk := rfl
@[simp] theorem State.answer_cfgNch (v : Wire) : (s.answer v).cfgNch = s.cfgNch := rfl
@[simp] theorem State.answer_numSamp (v : Wire) : (s.answer v).numSamp = s.numSamp := rfl
@[simp] theorem State.answer_holder (v : Wire) : (s.answer v).holder = s.holder := rfl
@[simp] theorem State.answer_dsp (v : Wire) : (s.answer v).dsp = s.dsp := rfl
@[simp] theorem State.answer_blk (v : Wire) : (s.answer v).blk = s.blk := rfl
@[simp] theorem State.answer_dl (v : Wire) : (s.answer v).dl = s.dl := rfl
@[simp] theorem State.answer_portA (v : Wire) : (s.answer v).portA = s.portA := rfl
@[simp] theorem State.answer_portC (v : Wire) : (s.answer v).portC = s.portC := rfl
@[simp] theorem State.answer_schedule (v : Wire) : (s.answer v).schedule = s.schedule := rfl
@[simp] theorem State.answer_replyA (v : Wire) : (s.answer v).replyA = s.replyA := rfl
@[simp] theorem State.answer_replyC (v : Wire) : (s.answer v).replyC = s.replyC := rfl
@[simp] theorem State.answer_wire (v : Wire) : (s.answer v).wire = v := rfl
@[simp] theorem State.answer_free (v : Wire) : (s.answer v).free = s.free := rfl

/-! ### The loss of value -/

@[simp] theorem State.loseDsp_lc : s.loseDsp.lc = s.lc := rfl
@[simp] theorem State.loseDsp_ctx : s.loseDsp.ctx = s.ctx := rfl
@[simp] theorem State.loseDsp_cfgErr : s.loseDsp.cfgErr = s.cfgErr := rfl
@[simp] theorem State.loseDsp_seqErr : s.loseDsp.seqErr = s.seqErr := rfl
@[simp] theorem State.loseDsp_errCode : s.loseDsp.errCode = s.errCode := rfl
@[simp] theorem State.loseDsp_cfgFsLo : s.loseDsp.cfgFsLo = s.cfgFsLo := rfl
@[simp] theorem State.loseDsp_cfgFsHi : s.loseDsp.cfgFsHi = s.cfgFsHi := rfl
@[simp] theorem State.loseDsp_cfgMaxBlk : s.loseDsp.cfgMaxBlk = s.cfgMaxBlk := rfl
@[simp] theorem State.loseDsp_cfgNch : s.loseDsp.cfgNch = s.cfgNch := rfl
@[simp] theorem State.loseDsp_numSamp : s.loseDsp.numSamp = s.numSamp := rfl
@[simp] theorem State.loseDsp_holder : s.loseDsp.holder = s.holder := rfl
@[simp] theorem State.loseDsp_blk : s.loseDsp.blk = s.blk := rfl
@[simp] theorem State.loseDsp_portA : s.loseDsp.portA = s.portA := rfl
@[simp] theorem State.loseDsp_portC : s.loseDsp.portC = s.portC := rfl
@[simp] theorem State.loseDsp_schedule : s.loseDsp.schedule = s.schedule := rfl
@[simp] theorem State.loseDsp_replyA : s.loseDsp.replyA = s.replyA := rfl
@[simp] theorem State.loseDsp_replyC : s.loseDsp.replyC = s.replyC := rfl
@[simp] theorem State.loseDsp_wire : s.loseDsp.wire = s.wire := rfl
@[simp] theorem State.loseDsp_free : s.loseDsp.free = s.free + 1 := rfl
@[simp] theorem State.loseCtx_lc : s.loseCtx.lc = s.lc := rfl
@[simp] theorem State.loseCtx_cfgErr : s.loseCtx.cfgErr = s.cfgErr := rfl
@[simp] theorem State.loseCtx_seqErr : s.loseCtx.seqErr = s.seqErr := rfl
@[simp] theorem State.loseCtx_errCode : s.loseCtx.errCode = s.errCode := rfl
@[simp] theorem State.loseCtx_cfgFsLo : s.loseCtx.cfgFsLo = s.cfgFsLo := rfl
@[simp] theorem State.loseCtx_cfgFsHi : s.loseCtx.cfgFsHi = s.cfgFsHi := rfl
@[simp] theorem State.loseCtx_cfgMaxBlk : s.loseCtx.cfgMaxBlk = s.cfgMaxBlk := rfl
@[simp] theorem State.loseCtx_cfgNch : s.loseCtx.cfgNch = s.cfgNch := rfl
@[simp] theorem State.loseCtx_numSamp : s.loseCtx.numSamp = s.numSamp := rfl
@[simp] theorem State.loseCtx_holder : s.loseCtx.holder = s.holder := rfl
@[simp] theorem State.loseCtx_dsp : s.loseCtx.dsp = s.dsp := rfl
@[simp] theorem State.loseCtx_blk : s.loseCtx.blk = s.blk := rfl
@[simp] theorem State.loseCtx_dl : s.loseCtx.dl = s.dl := rfl
@[simp] theorem State.loseCtx_portA : s.loseCtx.portA = s.portA := rfl
@[simp] theorem State.loseCtx_portC : s.loseCtx.portC = s.portC := rfl
@[simp] theorem State.loseCtx_schedule : s.loseCtx.schedule = s.schedule := rfl
@[simp] theorem State.loseCtx_replyA : s.loseCtx.replyA = s.replyA := rfl
@[simp] theorem State.loseCtx_replyC : s.loseCtx.replyC = s.replyC := rfl
@[simp] theorem State.loseCtx_wire : s.loseCtx.wire = s.wire := rfl
@[simp] theorem State.loseCtx_free : s.loseCtx.free = s.free + 1 := rfl
@[simp] theorem State.loseCtx_ctx : s.loseCtx.ctx = Config.noValue s.free := rfl
@[simp] theorem State.loseDsp_dsp : s.loseDsp.dsp = Config.noValue s.free := rfl

/-! ### A biquad instance among the four -/

variable (d : Dsp)

@[simp] theorem Dsp.setFilter_fs (F : FilterId) (b : Biquad) : (d.setFilter F b).fs = d.fs := by cases F <;> rfl
@[simp] theorem Dsp.setFilter_maxBlk (F : FilterId) (b : Biquad) : (d.setFilter F b).maxBlk = d.maxBlk := by cases F <;> rfl
@[simp] theorem Dsp.setFilter_nch (F : FilterId) (b : Biquad) : (d.setFilter F b).nch = d.nch := by cases F <;> rfl
@[simp] theorem Dsp.setFilter_len (F : FilterId) (b : Biquad) : (d.setFilter F b).len = d.len := by cases F <;> rfl
@[simp] theorem Dsp.setFilter_phaseInc (F : FilterId) (b : Biquad) : (d.setFilter F b).phaseInc = d.phaseInc := by cases F <;> rfl
@[simp] theorem Dsp.setFilter_smooth (F : FilterId) (b : Biquad) : (d.setFilter F b).smooth = d.smooth := by cases F <;> rfl
@[simp] theorem Dsp.setFilter_sat (F : FilterId) (b : Biquad) : (d.setFilter F b).sat = d.sat := by cases F <;> rfl
@[simp] theorem Dsp.setFilter_wowPhase (F : FilterId) (b : Biquad) : (d.setFilter F b).wowPhase = d.wowPhase := by cases F <;> rfl
@[simp] theorem Dsp.setFilter_wowPtr (F : FilterId) (b : Biquad) : (d.setFilter F b).wowPtr = d.wowPtr := by cases F <;> rfl
@[simp] theorem Dsp.filter_setFilter (F : FilterId) (b : Biquad) : (d.setFilter F b).filter F = b := by cases F <;> rfl
theorem Dsp.filter_setFilter_ne {F G : FilterId} (h : G ≠ F) (b : Biquad) : (d.setFilter F b).filter G = d.filter G := by
  cases F <;> cases G <;> first | exact absurd rfl h | rfl
@[simp] theorem Dsp.filter_lcf : d.filter .lcf = d.lcf := rfl
@[simp] theorem Dsp.filter_lsf : d.filter .lsf = d.lsf := rfl
@[simp] theorem Dsp.filter_hsf : d.filter .hsf = d.hsf := rfl
@[simp] theorem Dsp.filter_hcf : d.filter .hcf = d.hcf := rfl

@[simp] theorem Dsp.setFilter_lcf_lcf (b : Biquad) : (d.setFilter .lcf b).lcf = b := rfl
@[simp] theorem Dsp.setFilter_lcf_lsf (b : Biquad) : (d.setFilter .lcf b).lsf = d.lsf := rfl
@[simp] theorem Dsp.setFilter_lcf_hsf (b : Biquad) : (d.setFilter .lcf b).hsf = d.hsf := rfl
@[simp] theorem Dsp.setFilter_lcf_hcf (b : Biquad) : (d.setFilter .lcf b).hcf = d.hcf := rfl
@[simp] theorem Dsp.setFilter_lsf_lcf (b : Biquad) : (d.setFilter .lsf b).lcf = d.lcf := rfl
@[simp] theorem Dsp.setFilter_lsf_lsf (b : Biquad) : (d.setFilter .lsf b).lsf = b := rfl
@[simp] theorem Dsp.setFilter_lsf_hsf (b : Biquad) : (d.setFilter .lsf b).hsf = d.hsf := rfl
@[simp] theorem Dsp.setFilter_lsf_hcf (b : Biquad) : (d.setFilter .lsf b).hcf = d.hcf := rfl
@[simp] theorem Dsp.setFilter_hsf_lcf (b : Biquad) : (d.setFilter .hsf b).lcf = d.lcf := rfl
@[simp] theorem Dsp.setFilter_hsf_lsf (b : Biquad) : (d.setFilter .hsf b).lsf = d.lsf := rfl
@[simp] theorem Dsp.setFilter_hsf_hsf (b : Biquad) : (d.setFilter .hsf b).hsf = b := rfl
@[simp] theorem Dsp.setFilter_hsf_hcf (b : Biquad) : (d.setFilter .hsf b).hcf = d.hcf := rfl
@[simp] theorem Dsp.setFilter_hcf_lcf (b : Biquad) : (d.setFilter .hcf b).lcf = d.lcf := rfl
@[simp] theorem Dsp.setFilter_hcf_lsf (b : Biquad) : (d.setFilter .hcf b).lsf = d.lsf := rfl
@[simp] theorem Dsp.setFilter_hcf_hsf (b : Biquad) : (d.setFilter .hcf b).hsf = d.hsf := rfl
@[simp] theorem Dsp.setFilter_hcf_hcf (b : Biquad) : (d.setFilter .hcf b).hcf = b := rfl

/-! ### A channel's value -/

variable {α : Type} (q : Pair α) (v : α)

@[simp] theorem Pair.get_c0 : q.get .c0 = q.c0 := rfl
@[simp] theorem Pair.get_c1 : q.get .c1 = q.c1 := rfl
@[simp] theorem Pair.set_c0_c0 : (q.set .c0 v).c0 = v := rfl
@[simp] theorem Pair.set_c0_c1 : (q.set .c0 v).c1 = q.c1 := rfl
@[simp] theorem Pair.set_c1_c0 : (q.set .c1 v).c0 = q.c0 := rfl
@[simp] theorem Pair.set_c1_c1 : (q.set .c1 v).c1 = v := rfl
@[simp] theorem Pair.get_set (c : Chan) : (q.set c v).get c = v := by cases c <;> rfl
theorem Pair.get_set_ne {c e : Chan} (h : e ≠ c) : (q.set c v).get e = q.get e := by
  cases c <;> cases e <;> first | exact absurd rfl h | rfl
theorem Pair.set_get (c : Chan) : q.set c (q.get c) = q := by cases c <;> rfl

end Sys2Proof.Machine
end

