-- ==== Sys2Proof/Laws/Chain.lean ====
section
/-! SUPPORT. What the datapath operations and the sequencer's steps do, once each: a closed form of the new state. Every
proof goes through the operations one at a time and never unfolds a whole step. -/
namespace Sys2Proof.Machine

variable (num : Config.Numerics) (s : State)

/-! ### Each stage reads its own state (45_signal_chain.md R182) -/

@[simp] theorem bqOut_satStep (F : FilterId) (c d : Chan) (x y : F64) :
    bqOut F c x (satStep num d y s) = bqOut F c x s := by cases F <;> rfl

theorem bqOut_bqStep {F G : FilterId} (h : F ≠ G) (c d : Chan) (x y : F64) :
    bqOut F c x (bqStep G d y s) = bqOut F c x s := by
  simp only [bqOut, bqStep, State.setHist_dsp, Dsp.filter_setFilter_ne _ h]

@[simp] theorem satOut_bqStep (F : FilterId) (c d : Chan) (x y : F64) :
    satOut num c x (bqStep F d y s) = satOut num c x s := by cases F <;> rfl

@[simp] theorem wowRead_bqStep (F : FilterId) (c d : Chan) (i : Nat) (frac y : F64) :
    wowRead c i frac (bqStep F d y s) = wowRead c i frac s := by cases F <;> rfl

@[simp] theorem wowRead_satStep (c d : Chan) (i : Nat) (frac y : F64) :
    wowRead c i frac (satStep num d y s) = wowRead c i frac s := rfl

/-! ### One channel of a frame -/

/-- A channel's part of a frame is its stages' updates with the wires of the state before it. -/
theorem frameChannel_flat (n i : Nat) (frac : F64) (c : Chan) {w : Wires} (hw : wires num n i frac c s = w) :
    frameChannel num n i frac c s =
      (wowWrite c w.x5 (bqStep .hcf c w.x4 (bqStep .hsf c w.x3 (bqStep .lsf c w.x2
        (satStep num c w.x1 (bqStep .lcf c w.x0 s)))))).writeBlk c n (outCond w.x6) := by
  subst hw
  simp only [frameChannel, bqOut_satStep, satOut_bqStep, wowRead_bqStep, wowRead_satStep,
    bqOut_bqStep _ (show FilterId.lsf ≠ .lcf by decide), bqOut_bqStep _ (show FilterId.hsf ≠ .lcf by decide),
    bqOut_bqStep _ (show FilterId.hsf ≠ .lsf by decide), bqOut_bqStep _ (show FilterId.hcf ≠ .lcf by decide),
    bqOut_bqStep _ (show FilterId.hcf ≠ .lsf by decide), bqOut_bqStep _ (show FilterId.hcf ≠ .hsf by decide)]
  rfl

/-- The state after channel `c` of a frame. -/
theorem frameChannel_eq (n i : Nat) (frac : F64) (c : Chan) {w : Wires} (hw : wires num n i frac c s = w) :
    frameChannel num n i frac c s =
      { s with
        dsp := { s.dsp with
          lcf := ⟨s.dsp.lcf.k, s.dsp.lcf.h.set c ((s.dsp.lcf.h.get c).push w.x0 w.x1)⟩
          lsf := ⟨s.dsp.lsf.k, s.dsp.lsf.h.set c ((s.dsp.lsf.h.get c).push w.x2 w.x3)⟩
          hsf := ⟨s.dsp.hsf.k, s.dsp.hsf.h.set c ((s.dsp.hsf.h.get c).push w.x3 w.x4)⟩
          hcf := ⟨s.dsp.hcf.k, s.dsp.hcf.h.set c ((s.dsp.hcf.h.get c).push w.x4 w.x5)⟩
          sat := { s.dsp.sat with lp := s.dsp.sat.lp.set c w.x2 } }
        blk := s.blk.set c (Memory.write (s.blk.get c) n (outCond w.x6))
        dl := s.dl.set c (Memory.write (s.dl.get c) s.dsp.wowPtr w.x5) } := by
  rw [frameChannel_flat num s n i frac c hw]
  have h1 : bqOut .lcf c w.x0 s = w.x1 := by rw [← hw]; rfl
  have h2 : satOut num c w.x1 s = w.x2 := by rw [← hw]; rfl
  have h3 : bqOut .lsf c w.x2 s = w.x3 := by rw [← hw]; rfl
  have h4 : bqOut .hsf c w.x3 s = w.x4 := by rw [← hw]; rfl
  have h5 : bqOut .hcf c w.x4 s = w.x5 := by rw [← hw]; rfl
  rw [bqStep, bqOut_bqStep _ (by decide), bqOut_bqStep _ (by decide), bqOut_satStep, bqOut_bqStep _ (by decide), h5,
    bqStep, bqOut_bqStep _ (by decide), bqOut_satStep, bqOut_bqStep _ (by decide), h4,
    bqStep, bqOut_satStep, bqOut_bqStep _ (by decide), h3, satStep, satOut_bqStep, h2, bqStep, h1]
  simp only [wowWrite, State.writeBlk, State.writeDl, State.setHist, State.setSat, Dsp.setFilter, Dsp.filter]

/-- The wires of one channel do not depend on what the other channel has done. -/
theorem wires_frameChannel_ne (n i : Nat) (frac : F64) {c e : Chan} (h : e ≠ c) :
    wires num n i frac e (frameChannel num n i frac c s) = wires num n i frac e s := by
  obtain ⟨w, hw⟩ : ∃ w, wires num n i frac c s = w := ⟨_, rfl⟩
  rw [frameChannel_eq num s n i frac c hw]
  simp only [wires, State.readBlk, State.readDl, Pair.get_set_ne _ _ h]

/-! ### The seven ticks -/

/-- The smoothers after the ticks of a frame. -/
theorem tickAll_smooth (p : Fin 7) :
    (tickAll s).dsp.smooth[p] =
      ⟨tickValue (widen32 s.holder[targetIndex p]) s.dsp.smooth[p], s.dsp.smooth[p].coeff⟩ := by
  fin_cases p <;> simp [tickAll, smootherIds, smoothTick, State.setSmoother, targetIndex]

theorem foldl_smoothTick (l : List (Fin 7)) :
    l.foldl (fun s p => smoothTick p s) s =
      { s with dsp := { s.dsp with smooth := (l.foldl (fun s p => smoothTick p s) s).dsp.smooth } } := by
  induction l generalizing s with
  | nil => rfl
  | cons p l ih => exact ih (smoothTick p s)

/-- The ticks write the smoothers and nothing else. -/
theorem tickAll_eq : tickAll s = { s with dsp := { s.dsp with smooth := (tickAll s).dsp.smooth } } :=
  foldl_smoothTick s smootherIds

/-- Lines 2 to 4 of FRAME write the smoothers and the phase and nothing else. -/
theorem beginFrame_eq {v : Vector Smoother 7} (hv : (tickAll s).dsp.smooth = v) :
    beginFrame s =
      { s with dsp := { s.dsp with smooth := v, wowPhase := nextPhase s.dsp.wowPhase s.dsp.phaseInc } } := by
  subst hv
  rw [beginFrame, tickAll_eq]
  simp only [wowLfo]

/-- The wires of a frame do not depend on the ticks or the oscillator's advance. -/
theorem wires_beginFrame (n i : Nat) (frac : F64) (c : Chan) :
    wires num n i frac c (beginFrame s) = wires num n i frac c s := by
  rw [beginFrame_eq s rfl]
  simp only [wires, State.readBlk, State.readDl]

/-- The delay of a frame, in terms of the state before it. -/
theorem frameDelay_eq :
    frameDelay num s = splitDelay (delaySamples s.dsp.fs s.dsp.len
      (delayMs (tickValue (widen32 s.holder[(0 : Fin 8)]) s.dsp.smooth[(0 : Fin 7)]) (num.sin s.dsp.wowPhase))) := by
  have h0 := tickAll_smooth s 0
  have h1 : lfoOut num (tickAll s) = num.sin s.dsp.wowPhase := by
    rw [tickAll_eq]
    simp only [lfoOut]
  rw [frameDelay, beginFrame_eq s rfl, h1, wowDelay]
  simp only
  rw [show (tickAll s).dsp.smooth[0] = _ from h0]
  simp only [targetIndex]
  congr

/-- A mono frame is channel 0's part. -/
theorem frameChannels_mono (n i : Nat) (frac : F64) (h : s.dsp.nch = 1) :
    frameChannels num n i frac s = frameChannel num n i frac .c0 s := by
  simp only [frameChannels, h, channels, List.take, List.foldl]

/-- A stereo frame is channel 0's part, then channel 1's. -/
theorem frameChannels_stereo (n i : Nat) (frac : F64) (h : s.dsp.nch = 2) :
    frameChannels num n i frac s = frameChannel num n i frac .c1 (frameChannel num n i frac .c0 s) := by
  simp only [frameChannels, h, channels, List.take, List.foldl]

/-! ### Coefficients at a block's start -/

/-- BLOCK_START's lines 6 to 11 write the four coefficient sets and the held values of the saturation stage. -/
theorem recompute_eq :
    recompute num s =
      { s with
        dsp := { s.dsp with
          lcf := ⟨lowCutSet num s.dsp.fs s.dsp.smooth[1].cur s.dsp.smooth[2].cur, s.dsp.lcf.h⟩
          hcf := ⟨highCutSet num s.dsp.fs s.dsp.smooth[3].cur s.dsp.smooth[4].cur, s.dsp.hcf.h⟩
          lsf := ⟨lowShelfSet num s.dsp.fs s.dsp.smooth[6].cur, s.dsp.lsf.h⟩
          hsf := ⟨highShelfSet num s.dsp.fs s.dsp.smooth[6].cur, s.dsp.hsf.h⟩
          sat := { s.dsp.sat with
            g := satGain s.dsp.smooth[5].cur
            norm := num.tanh (satGain s.dsp.smooth[5].cur)
            alp := satAlpha num s.dsp.fs s.dsp.smooth[5].cur } } } := by
  simp only [recompute, toneSet, satSet, State.setCoefs, State.setSat, Dsp.setFilter, Dsp.filter]

/-- BQ.CHECK leaves finite coefficients. -/
theorem checked_finite (k : Coefs) : Coefs.finite (checked k) = true := by
  unfold checked
  split
  · assumption
  · decide

/-! ### PREPARE -/

theorem foldl_smoothPrepare (l : List (Fin 7)) :
    l.foldl (fun s p => smoothSnap p (smoothCoef num p s)) s =
      { s with dsp := { s.dsp with
        smooth := (l.foldl (fun s p => smoothSnap p (smoothCoef num p s)) s).dsp.smooth } } := by
  induction l generalizing s with
  | nil => rfl
  | cons p l ih => exact ih (smoothSnap p (smoothCoef num p s))

/-- The smoothers after PREPARE's line 7. -/
theorem prepare_smooth (fs : F64) (maxBlk nch : Nat) (p : Fin 7) :
    (prepare num fs maxBlk nch s).dsp.smooth[p] =
      ⟨widen32 s.holder[targetIndex p], smoothCoefValue num fs p⟩ := by
  fin_cases p <;>
    simp [prepare, clearErrors, wowInit, satReset, bqReset, smootherIds, smoothCoef, smoothSnap, State.setSmoother,
      State.setSat, Dsp.setFilter, targetIndex]

/-- The state after PREPARE's lines 6 to 12. -/
theorem prepare_eq (fs : F64) (maxBlk nch : Nat) :
    prepare num fs maxBlk nch s =
      { s with
        lc := .idle, cfgErr := false, seqErr := false, errCode := 0#4
        dsp :=
          { fs := fs, maxBlk := maxBlk, nch := nch, len := lineLength fs, phaseInc := phaseIncOf fs
            smooth := (prepare num fs maxBlk nch s).dsp.smooth
            lcf := Biquad.resetValue, lsf := Biquad.resetValue, hsf := Biquad.resetValue, hcf := Biquad.resetValue
            sat := Saturation.resetValue, wowPhase := Config.lfoPhase0, wowPtr := 0 }
        dl := ⟨Memory.clearBelow (lineLength fs) s.dl.c0, Memory.clearBelow (lineLength fs) s.dl.c1⟩ } := by
  obtain ⟨v, hv⟩ : ∃ v, smootherIds.foldl (fun s p => smoothSnap p (smoothCoef num p s))
      { s with dsp := { s.dsp with fs := fs, maxBlk := maxBlk, nch := nch } } =
      { s with dsp := { s.dsp with fs := fs, maxBlk := maxBlk, nch := nch, smooth := v } } :=
    ⟨_, foldl_smoothPrepare num _ smootherIds⟩
  simp only [prepare, hv, clearErrors, wowInit, satReset, bqReset, State.setSat, Dsp.setFilter]

end Sys2Proof.Machine
end

