-- ==== Sys2Proof/Laws/Decode.lean ====
section
/-! SUPPORT. The fields of a transaction word made from its fields (30_encoding.md R71). -/
namespace Sys2Proof

variable (portC write : Bool) (addr : BitVec 16) (data : Word)

@[simp] theorem TWord.make_isPortC : (TWord.make portC write addr data).isPortC = portC := by
  simp only [TWord.isPortC, TWord.make, BitVec.getLsbD_append]
  cases portC <;> cases write <;> rfl

@[simp] theorem TWord.make_isWrite : (TWord.make portC write addr data).isWrite = write := by
  simp only [TWord.isWrite, TWord.make, BitVec.getLsbD_append]
  cases portC <;> cases write <;> rfl

@[simp] theorem TWord.make_addr : (TWord.make portC write addr data).addr = addr := by
  apply BitVec.eq_of_getLsbD_eq
  intro i hi
  simp only [TWord.addr, TWord.make, BitVec.getLsbD_extractLsb', BitVec.getLsbD_append]
  simp [hi]

@[simp] theorem TWord.make_data : (TWord.make portC write addr data).data = data := by
  apply BitVec.eq_of_getLsbD_eq
  intro i hi
  simp only [TWord.data, TWord.make, BitVec.getLsbD_extractLsb', BitVec.getLsbD_append]
  simp [hi]

/-- A transaction word is made of its fields. -/
theorem TWord.make_fields (t : TWord) : TWord.make t.isPortC t.isWrite t.addr t.data = t := by
  apply BitVec.eq_of_getLsbD_eq
  intro i hi
  simp only [TWord.make, TWord.isPortC, TWord.isWrite, TWord.addr, TWord.data, BitVec.getLsbD_append,
    BitVec.getLsbD_extractLsb', BitVec.getLsbD_ofBool]
  by_cases h : i < 32
  · simp [h]
  · by_cases h2 : i - 32 < 16
    · simp only [h, h2, decide_true, decide_false, if_true, if_false, Bool.true_and]
      congr 1
      omega
    · have : i = 48 ∨ i = 49 := by omega
      rcases this with rfl | rfl <;> simp

end Sys2Proof
end

