-- ==== Sys2Proof/Laws/Float.lean ====
section
/-! SUPPORT. The small laws of the binary64 operations: a pattern's parts, that rounding is monotone, what conditioning
leaves. -/
namespace Sys2Proof.Machine

/-! ### A pattern's parts -/

theorem F64.neg?_eq (x : F64) : F64.neg? x = decide (0x8000000000000000 ≤ x.toNat) := by
  unfold F64.neg?
  rw [← BitVec.testBit_toNat]
  by_cases h : 0x8000000000000000 ≤ x.toNat
  · have := Nat.testBit_two_pow_add_eq (x.toNat - 2 ^ 63) 63
    rw [show 2 ^ 63 + (x.toNat - 2 ^ 63) = x.toNat by omega] at this
    rw [this, Nat.testBit_lt_two_pow (by have := x.isLt; omega)]
    simp [h]
  · rw [Nat.testBit_lt_two_pow (by omega)]
    simp [h]

theorem F64.mag_lt (x : F64) : F64.mag x < 0x8000000000000000 := Nat.mod_lt _ (by decide)

/-- A pattern is its sign and its magnitude. -/
theorem F64.toNat_eq (x : F64) : x.toNat = F64.mag x + if F64.neg? x then 0x8000000000000000 else 0 := by
  rw [F64.neg?_eq]
  unfold F64.mag
  have := x.isLt
  by_cases h : 0x8000000000000000 ≤ x.toNat
  · simp only [h, decide_true, if_true]
    omega
  · simp only [h, decide_false, Bool.false_eq_true, if_false]
    omega

theorem packF64_toNat {neg : Bool} {m : Nat} (h : m < 0x8000000000000000) :
    (packF64 neg m).toNat = m + if neg then 0x8000000000000000 else 0 := by
  unfold packF64
  rw [BitVec.toNat_ofNat]
  cases neg <;> simp only [Bool.false_eq_true, if_true, if_false] <;> omega

@[simp] theorem F64.mag_pack {neg : Bool} {m : Nat} (h : m < 0x8000000000000000) :
    F64.mag (packF64 neg m) = m := by
  unfold F64.mag
  rw [packF64_toNat h]
  cases neg <;> simp only [Bool.false_eq_true, if_true, if_false] <;> omega

@[simp] theorem F64.neg?_pack {neg : Bool} {m : Nat} (h : m < 0x8000000000000000) :
    F64.neg? (packF64 neg m) = neg := by
  rw [F64.neg?_eq, packF64_toNat h]
  cases neg
  · simp only [Bool.false_eq_true, if_false, decide_eq_false_iff_not]
    omega
  · simp only [if_true, decide_eq_true_eq]
    omega

theorem F64.ext_parts {x y : F64} (h : F64.mag x = F64.mag y) (hn : F64.neg? x = F64.neg? y) : x = y := by
  apply BitVec.eq_of_toNat_eq
  rw [F64.toNat_eq x, F64.toNat_eq y, h, hn]

/-- A delivered NaN is a NaN, whichever it is. -/
@[simp] theorem isNaN_nanF64 (op : Nat) (x y : F64) : isNaN (nanF64 op x y) = true := by
  unfold isNaN nanF64 infMag
  rw [F64.mag_pack (by omega)]
  exact decide_eq_true (by omega)

@[simp] theorem F64.mag_posZero : F64.mag posZero = 0 := by decide
@[simp] theorem F64.neg?_posZero : F64.neg? posZero = false := by decide

/-! ### Rounding is monotone -/

theorem roundHalfEven_le (p q : Nat) : roundHalfEven p q ≤ p / q + 1 := by
  unfold roundHalfEven
  split
  · omega
  · split
    · omega
    · split <;> omega

theorem le_roundHalfEven (p q : Nat) : p / q ≤ roundHalfEven p q := by
  unfold roundHalfEven
  split
  · omega
  · split
    · omega
    · split <;> omega

/-- Rounding half to even is the integer nearest to the quotient: twice the distance is at most the divisor. -/
theorem roundHalfEven_near (p : Nat) {q : Nat} (hq : 0 < q) :
    2 * p ≤ (2 * roundHalfEven p q + 1) * q ∧ 2 * roundHalfEven p q * q ≤ 2 * p + q := by
  have h := Nat.div_add_mod p q
  have hlt := Nat.mod_lt p hq
  unfold roundHalfEven
  generalize p / q = d at *
  generalize p % q = r at *
  have e : q * d = d * q := Nat.mul_comm _ _
  split
  · constructor <;> nlinarith
  · split
    · constructor <;> nlinarith
    · split <;> constructor <;> nlinarith

/-- An exact integer rounds to itself. -/
theorem roundHalfEven_mul (k : Nat) {q : Nat} (hq : 0 < q) : roundHalfEven (k * q) q = k := by
  unfold roundHalfEven
  rw [Nat.mul_mod_left, Nat.mul_div_cancel _ hq]
  simp [hq]

/-- A larger quotient never rounds to less. -/
theorem roundHalfEven_mono {p q p' q' : Nat} (hq : 0 < q) (hq' : 0 < q') (h : p * q' ≤ p' * q) :
    roundHalfEven p q ≤ roundHalfEven p' q' := by
  by_contra hlt
  obtain ⟨-, hu⟩ := roundHalfEven_near p hq
  obtain ⟨hl, -⟩ := roundHalfEven_near p' hq'
  -- the quotients have the same integer part and the same midpoint, so the tie rule would have to differ
  have hdiv : p / q ≤ p' / q' := by
    rw [Nat.le_div_iff_mul_le hq']
    have h1 : p / q * q ≤ p := Nat.div_mul_le_self p q
    have h2 : p / q * q' * q ≤ p' * q := by
      calc p / q * q' * q = p / q * q * q' := by ring
        _ ≤ p * q' := Nat.mul_le_mul_right _ h1
        _ ≤ p' * q := h
    exact Nat.le_of_mul_le_mul_right h2 hq
  have h1 := roundHalfEven_le p q
  have h2 := le_roundHalfEven p' q'
  have heq : p / q = p' / q' := by omega
  have hp := Nat.div_add_mod p q
  have hp' := Nat.div_add_mod p' q'
  have hr : p % q * q' ≤ p' % q' * q := by
    rw [← heq] at hp'
    have e : p * q' = (p / q) * (q * q') + p % q * q' := by
      calc p * q' = (q * (p / q) + p % q) * q' := by rw [hp]
        _ = _ := by ring
    have e' : p' * q = (p / q) * (q * q') + p' % q' * q := by
      calc p' * q = (q' * (p / q) + p' % q') * q := by rw [hp']
        _ = _ := by ring
    omega
  apply hlt
  unfold roundHalfEven
  rw [← heq]
  generalize p % q = r at *
  generalize p' % q' = r' at *
  have k1 : 2 * r' < q' → 2 * r < q := by
    intro hh
    by_contra hge
    have : q * q' ≤ 2 * r * q' := Nat.mul_le_mul_right _ (by omega)
    have : 2 * r' * q < q' * q := Nat.mul_lt_mul_of_pos_right hh hq
    nlinarith
  have k2 : q < 2 * r → q' < 2 * r' := by
    intro hh
    by_contra hge
    have : 2 * r' * q ≤ q' * q := Nat.mul_le_mul_right _ (by omega)
    have : q * q' < 2 * r * q' := Nat.mul_lt_mul_of_pos_right hh hq'
    nlinarith
  split
  · split
    · omega
    · split
      · omega
      · split <;> omega
  · rename_i a
    have a' : ¬ 2 * r' < q' := fun hh => a (k1 hh)
    rw [if_neg a']
    split
    · rename_i b
      rw [if_pos (k2 b)]
    · split_ifs <;> omega

/-- The number of dropped bits leaves a significand below `2^(fracBits+1)`. -/
theorem div_excess_lt (fb n : Nat) : n / 2 ^ excess fb n < 2 ^ (fb + 1) := by
  rw [Nat.div_lt_iff_lt_mul (by positivity), ← Nat.pow_add]
  have h := Nat.lt_log2_self (n := n)
  exact Nat.lt_of_lt_of_le h (Nat.pow_le_pow_right (by decide) (by unfold excess; omega))

/-- Where bits are dropped the significand has its leading bit. -/
theorem le_div_excess {fb n : Nat} (h : excess fb n ≠ 0) : 2 ^ fb ≤ n / 2 ^ excess fb n := by
  rw [Nat.le_div_iff_mul_le (by positivity), ← Nat.pow_add]
  have hn : n ≠ 0 := by
    rintro rfl
    exact h (by simp [excess])
  have h2 := Nat.log2_self_le hn
  refine Nat.le_trans (Nat.pow_le_pow_right (by decide) ?_) h2
  unfold excess at h ⊢
  omega

theorem excess_mono {fb n m : Nat} (h : n ≤ m) : excess fb n ≤ excess fb m := by
  unfold excess
  rcases Nat.eq_zero_or_pos n with rfl | hn
  · simp
  · have : Nat.log2 n ≤ Nat.log2 m := by
      rw [Nat.le_log2 (by omega)]
      exact Nat.le_trans (Nat.log2_self_le (by omega)) h
    omega

/-- A larger magnitude never rounds to a smaller pattern. -/
theorem nearestMag_mono {fb inf p q p' q' : Nat} (hq : 0 < q) (hq' : 0 < q') (h : p * q' ≤ p' * q) :
    nearestMag fb inf p q ≤ nearestMag fb inf p' q' := by
  have hdiv : p / q ≤ p' / q' := by
    rw [Nat.le_div_iff_mul_le hq']
    have h1 : p / q * q' * q ≤ p' * q := by
      calc p / q * q' * q = p / q * q * q' := by ring
        _ ≤ p * q' := Nat.mul_le_mul_right _ (Nat.div_mul_le_self p q)
        _ ≤ p' * q := h
    exact Nat.le_of_mul_le_mul_right h1 hq
  have he := excess_mono (fb := fb) hdiv
  unfold nearestMag
  refine min_le_min (Nat.le_refl _) ?_
  rcases Nat.eq_or_lt_of_le he with he | he
  · rw [← he]
    refine Nat.add_le_add_left (roundHalfEven_mono (by positivity) (by positivity) ?_) _
    calc p * (q' * 2 ^ excess fb (p / q)) = p * q' * 2 ^ excess fb (p / q) := by ring
      _ ≤ p' * q * 2 ^ excess fb (p / q) := Nat.mul_le_mul_right _ h
      _ = p' * (q * 2 ^ excess fb (p / q)) := by ring
  · have hu : roundHalfEven p (q * 2 ^ excess fb (p / q)) ≤ 2 ^ (fb + 1) := by
      have h1 := roundHalfEven_le p (q * 2 ^ excess fb (p / q))
      have h2 := div_excess_lt fb (p / q)
      rw [Nat.div_div_eq_div_mul] at h2
      omega
    have hl : 2 ^ fb ≤ roundHalfEven p' (q' * 2 ^ excess fb (p' / q')) := by
      have h1 := le_roundHalfEven p' (q' * 2 ^ excess fb (p' / q'))
      have h2 := le_div_excess (fb := fb) (n := p' / q') (by omega)
      rw [Nat.div_div_eq_div_mul] at h2
      omega
    have hm : (excess fb (p / q) + 1) * 2 ^ fb ≤ excess fb (p' / q') * 2 ^ fb :=
      Nat.mul_le_mul_right _ he
    have : 2 ^ (fb + 1) = 2 ^ fb + 2 ^ fb := by rw [Nat.pow_succ]; omega
    have : (excess fb (p / q) + 1) * 2 ^ fb = excess fb (p / q) * 2 ^ fb + 2 ^ fb := by ring
    omega

theorem nearestMag_le (fb inf p q : Nat) : nearestMag fb inf p q ≤ inf := Nat.min_le_left _ _

/-- A representable magnitude is its own nearest. -/
theorem nearestMag_units {fb inf mag : Nat} (h : mag ≤ inf) : nearestMag fb inf (unitsOf fb mag) 1 = mag := by
  have hp : 0 < 2 ^ fb := by positivity
  have hdm := Nat.div_add_mod mag (2 ^ fb)
  have hlt := Nat.mod_lt mag hp
  unfold nearestMag unitsOf
  split
  · rename_i h0
    have hm : mag < 2 ^ fb := by
      rw [h0] at hdm
      omega
    have he : excess fb (mag / 1) = 0 := by
      unfold excess
      rw [Nat.div_one]
      rcases Nat.eq_zero_or_pos mag with rfl | hpos
      · simp
      · have := (Nat.log2_lt (by omega)).mpr hm
        omega
    rw [he]
    have := roundHalfEven_mul mag (q := 1) Nat.one_pos
    simp only [Nat.mul_one] at this
    simp [this, h]
  · rename_i h0
    generalize hk : mag / 2 ^ fb = k at *
    generalize hr : mag % 2 ^ fb = r at *
    have hlog : Nat.log2 ((2 ^ fb + r) * 2 ^ (k - 1)) = fb + (k - 1) := by
      rw [Nat.log2_eq_iff (by positivity)]
      constructor
      · rw [Nat.pow_add]
        exact Nat.mul_le_mul_right _ (by omega)
      · rw [show fb + (k - 1) + 1 = (fb + 1) + (k - 1) by omega, Nat.pow_add]
        refine Nat.mul_lt_mul_of_pos_right ?_ (by positivity)
        rw [Nat.pow_succ]
        omega
    have he : excess fb ((2 ^ fb + r) * 2 ^ (k - 1) / 1) = k - 1 := by
      unfold excess
      rw [Nat.div_one, hlog]
      omega
    rw [he, Nat.one_mul, roundHalfEven_mul _ (by positivity)]
    have : (k - 1) * 2 ^ fb + 2 ^ fb = k * 2 ^ fb := by
      rw [← Nat.succ_mul]
      congr 1
      omega
    have hc : 2 ^ fb * k = k * 2 ^ fb := Nat.mul_comm _ _
    rw [Nat.min_eq_right]
    · omega
    · omega

/-! ### Conditioning (00_scope.md R13) -/

theorem isNaN_posZero : isNaN posZero = false := by decide

theorem finite_posZero : finite posZero = true := by decide

theorem flush_posZero : flush posZero = posZero := by
  unfold flush
  split <;> rfl

theorem sanitize_finite (v : F64) : finite (sanitize v) = true := by
  unfold sanitize
  split
  · assumption
  · exact finite_posZero

theorem flush_finite {v : F64} (h : finite v = true) : finite (flush v) = true := by
  unfold flush
  split
  · exact finite_posZero
  · exact h

/-- A conditioned value is finite. -/
theorem cond_finite (v : F64) : finite (cond v) = true := flush_finite (sanitize_finite v)

/-- Conditioning a NaN gives `+0.0`. -/
theorem cond_nan {v : F64} (h : isNaN v = true) : cond v = posZero := by
  have : finite v = false := by
    simp only [isNaN, finite, decide_eq_true_eq, decide_eq_false_iff_not] at *
    omega
  rw [cond, sanitize, if_neg (by simp [this]), flush_posZero]

theorem flush_flush (v : F64) : flush (flush v) = flush v := by
  by_cases h : flt (fabs v) Config.flushThreshold = true
  · simp [flush, h]
  · simp [flush, h]

/-- Conditioning a second time changes nothing. -/
theorem cond_cond (v : F64) : cond (cond v) = cond v := by
  show flush (sanitize (cond v)) = cond v
  rw [sanitize, if_pos (cond_finite v)]
  exact flush_flush _

@[simp] theorem cond_posZero : cond posZero = posZero := by
  show flush (sanitize posZero) = posZero
  rw [sanitize, if_pos finite_posZero, flush_posZero]

/-! ### Comparisons of numbers that are not negative -/

theorem finite_iff {x : F64} : finite x = true ↔ F64.mag x < infMag := by simp [finite]

theorem isNaN_of_finite {x : F64} (h : finite x = true) : isNaN x = false := by
  rw [finite_iff] at h
  simp only [isNaN, decide_eq_false_iff_not]
  omega

theorem isInf_of_finite {x : F64} (h : finite x = true) : isInf x = false := by
  rw [finite_iff] at h
  simp only [isInf, decide_eq_false_iff_not]
  omega

theorem F64.key_nonneg {x : F64} (h : F64.neg? x = false) : F64.key x = F64.mag x := by simp [F64.key, h]

/-- Between two numbers that are not negative the order is the magnitudes'. -/
theorem fle_nonneg {x y : F64} (hx : F64.neg? x = false) (hy : F64.neg? y = false) (nx : isNaN x = false)
    (ny : isNaN y = false) : fle x y = true ↔ F64.mag x ≤ F64.mag y := by
  simp [fle, nx, ny, F64.key_nonneg hx, F64.key_nonneg hy]

theorem flt_nonneg {x y : F64} (hx : F64.neg? x = false) (hy : F64.neg? y = false) (nx : isNaN x = false)
    (ny : isNaN y = false) : flt x y = true ↔ F64.mag x < F64.mag y := by
  simp [flt, nx, ny, F64.key_nonneg hx, F64.key_nonneg hy]

/-- What is at least a positive number is positive and not NaN. -/
theorem pos_of_fge {x lo : F64} (hl : F64.neg? lo = false) (h0 : 0 < F64.mag lo) (h : fge x lo = true) :
    F64.neg? x = false ∧ isNaN x = false ∧ F64.mag lo ≤ F64.mag x := by
  simp only [fge, fle, Bool.and_eq_true, Bool.not_eq_true', decide_eq_true_eq] at h
  obtain ⟨⟨-, nx⟩, hk⟩ := h
  rw [F64.key_nonneg hl] at hk
  cases hx : F64.neg? x
  · rw [F64.key_nonneg hx] at hk
    exact ⟨rfl, nx, by omega⟩
  · simp only [F64.key, hx, if_true] at hk
    omega

/-! ### Products and quotients of numbers that are not negative -/

/-- A larger pattern has a larger magnitude. -/
theorem unitsOf_mono {fb m n : Nat} (h : m ≤ n) : unitsOf fb m ≤ unitsOf fb n := by
  have hp : 0 < 2 ^ fb := by positivity
  have hd : m / 2 ^ fb ≤ n / 2 ^ fb := Nat.div_le_div_right h
  have hm := Nat.div_add_mod m (2 ^ fb)
  have hn := Nat.div_add_mod n (2 ^ fb)
  have lm := Nat.mod_lt m hp
  unfold unitsOf
  generalize m / 2 ^ fb = a at *
  generalize n / 2 ^ fb = b at *
  generalize m % 2 ^ fb = r at *
  generalize n % 2 ^ fb = t at *
  split
  · rename_i h0
    split
    · exact h
    · rename_i hb
      subst h0
      have : 1 ≤ 2 ^ (b - 1) := Nat.one_le_two_pow
      nlinarith
  · rename_i h0
    rw [if_neg (by omega)]
    rcases Nat.eq_or_lt_of_le hd with e | e
    · subst e
      exact Nat.mul_le_mul_right _ (by omega)
    · have h1 : (2 ^ fb + r) * 2 ^ (a - 1) ≤ 2 ^ (fb + 1) * 2 ^ (a - 1) :=
        Nat.mul_le_mul_right _ (by rw [Nat.pow_succ]; omega)
      have h2 : 2 ^ (fb + 1) * 2 ^ (a - 1) ≤ 2 ^ fb * 2 ^ (b - 1) := by
        rw [← Nat.pow_add, ← Nat.pow_add]
        exact Nat.pow_le_pow_right (by decide) (by omega)
      have h3 : 2 ^ fb * 2 ^ (b - 1) ≤ (2 ^ fb + t) * 2 ^ (b - 1) := Nat.mul_le_mul_right _ (by omega)
      omega

theorem F64.units_mono {x y : F64} (h : F64.mag x ≤ F64.mag y) : F64.units x ≤ F64.units y := unitsOf_mono h

theorem unitsPerOne_pos : 0 < unitsPerOne := by
  rw [unitsPerOne]
  positivity

theorem infMag_lt : infMag < 0x8000000000000000 := by decide

/-- A finite product of numbers that are not negative, as a pattern. -/
theorem fmul_nonneg {x y : F64} (fx : finite x = true) (fy : finite y = true) (hx : F64.neg? x = false)
    (hy : F64.neg? y = false) :
    fmul x y = packF64 false (nearestMag 52 infMag (F64.units x * F64.units y) unitsPerOne) := by
  simp [fmul, isNaN_of_finite fx, isNaN_of_finite fy, isInf_of_finite fx, isInf_of_finite fy, signXor, hx, hy]

/-- A finite quotient of numbers that are not negative, as a pattern. -/
theorem fdiv_nonneg {x y : F64} (fx : finite x = true) (fy : finite y = true) (hx : F64.neg? x = false)
    (hy : F64.neg? y = false) (h0 : F64.mag y ≠ 0) :
    fdiv x y = packF64 false (nearestMag 52 infMag (F64.units x * unitsPerOne) (F64.units y)) := by
  simp [fdiv, isNaN_of_finite fx, isNaN_of_finite fy, isInf_of_finite fx, isInf_of_finite fy, signXor, hx, hy, h0]

theorem mag_nearest (p q : Nat) : F64.mag (packF64 false (nearestMag 52 infMag p q)) = nearestMag 52 infMag p q :=
  F64.mag_pack (Nat.lt_of_le_of_lt (nearestMag_le _ _ _ _) infMag_lt)

theorem neg?_nearest (p q : Nat) : F64.neg? (packF64 false (nearestMag 52 infMag p q)) = false :=
  F64.neg?_pack (Nat.lt_of_le_of_lt (nearestMag_le _ _ _ _) infMag_lt)

/-- A product grows with its second factor. -/
theorem mag_fmul_le {c x y : F64} (fc : finite c = true) (hc : F64.neg? c = false) (fx : finite x = true)
    (fy : finite y = true) (hx : F64.neg? x = false) (hy : F64.neg? y = false) (h : F64.mag x ≤ F64.mag y) :
    F64.mag (fmul c x) ≤ F64.mag (fmul c y) := by
  rw [fmul_nonneg fc fx hc hx, fmul_nonneg fc fy hc hy, mag_nearest, mag_nearest]
  exact nearestMag_mono unitsPerOne_pos unitsPerOne_pos
    (Nat.mul_le_mul_right _ (Nat.mul_le_mul_left _ (F64.units_mono h)))

/-- A product of numbers that are not negative is not negative. -/
theorem neg?_fmul {x y : F64} (fx : finite x = true) (fy : finite y = true) (hx : F64.neg? x = false)
    (hy : F64.neg? y = false) : F64.neg? (fmul x y) = false := by
  rw [fmul_nonneg fx fy hx hy]
  exact neg?_nearest _ _

theorem units_pos {x : F64} (h : F64.mag x ≠ 0) : 0 < F64.units x := by
  unfold F64.units unitsOf
  split
  · omega
  · positivity

/-- A quotient grows with its dividend. -/
theorem mag_fdiv_le {c x y : F64} (fc : finite c = true) (hc : F64.neg? c = false) (h0 : F64.mag c ≠ 0)
    (fx : finite x = true) (fy : finite y = true) (hx : F64.neg? x = false) (hy : F64.neg? y = false)
    (h : F64.mag x ≤ F64.mag y) : F64.mag (fdiv x c) ≤ F64.mag (fdiv y c) := by
  rw [fdiv_nonneg fx fc hx hc h0, fdiv_nonneg fy fc hy hc h0, mag_nearest, mag_nearest]
  exact nearestMag_mono (units_pos h0) (units_pos h0)
    (Nat.mul_le_mul_right _ (Nat.mul_le_mul_right _ (F64.units_mono h)))

/-- A quotient falls as its divisor grows. -/
theorem mag_fdiv_anti {c x y : F64} (fc : finite c = true) (hc : F64.neg? c = false)
    (fx : finite x = true) (fy : finite y = true) (hx : F64.neg? x = false) (hy : F64.neg? y = false)
    (h0 : F64.mag x ≠ 0) (h : F64.mag x ≤ F64.mag y) : F64.mag (fdiv c y) ≤ F64.mag (fdiv c x) := by
  have hy0 : F64.mag y ≠ 0 := by omega
  rw [fdiv_nonneg fc fx hc hx h0, fdiv_nonneg fc fy hc hy hy0, mag_nearest, mag_nearest]
  exact nearestMag_mono (units_pos hy0) (units_pos h0) (Nat.mul_le_mul_left _ (F64.units_mono h))

theorem neg?_fdiv {x y : F64} (fx : finite x = true) (fy : finite y = true) (hx : F64.neg? x = false)
    (hy : F64.neg? y = false) (h0 : F64.mag y ≠ 0) : F64.neg? (fdiv x y) = false := by
  rw [fdiv_nonneg fx fy hx hy h0]
  exact neg?_nearest _ _

/-- The exact value of a number that is not negative. -/
theorem F64.exact_nonneg {x : F64} (h : F64.neg? x = false) : F64.exact x = F64.units x := by simp [F64.exact, h]

/-- Rounding an exact integer of units that is not negative. -/
theorem roundUnits_nonneg {z : Int} (h : 0 ≤ z) : roundUnits z = packF64 false (nearestMag 52 infMag z.toNat 1) := by
  rw [roundUnits, decide_eq_false (by omega)]
  congr 2
  omega

/-- A finite pattern's exact value rounds to the pattern (its zero to `+0.0`). -/
theorem roundUnits_exact {x : F64} (h : finite x = true) (h0 : F64.mag x ≠ 0) : roundUnits (F64.exact x) = x := by
  have hu := units_pos h0
  rw [finite_iff] at h
  have hn : nearestMag 52 infMag (F64.exact x).natAbs 1 = F64.mag x := by
    have : (F64.exact x).natAbs = unitsOf 52 (F64.mag x) := by
      unfold F64.exact
      split <;> simp [F64.units]
    rw [this]
    exact nearestMag_units (Nat.le_of_lt h)
  rw [roundUnits, hn]
  apply F64.ext_parts
  · exact F64.mag_pack (F64.mag_lt x)
  · rw [F64.neg?_pack (F64.mag_lt x)]
    unfold F64.exact
    cases F64.neg? x <;> (simp; try omega)

end Sys2Proof.Machine
end

