-- ==== Sys2Proof/Laws/Memory.lean ====
section
/-! SUPPORT. The laws of memory: what each memory operation gives, and that it keeps the canonical form. -/
namespace Sys2Proof.Machine

variable {w : Nat}

/-! ### Reading -/

@[simp] theorem Memory.read_nil (a : Nat) : Memory.read ([] : Memory w) a = Memory.default w := rfl

@[simp] theorem Memory.read_head (a : Nat) (v : BitVec w) (m : Memory w) : Memory.read ((a, v) :: m) a = v := by
  simp [Memory.read]

theorem Memory.read_tail {a b : Nat} (h : a ≠ b) (v : BitVec w) (m : Memory w) :
    Memory.read ((b, v) :: m) a = Memory.read m a := by simp [Memory.read, h]

theorem Memory.allAbove_mem {a : Nat} {m : Memory w} (h : Memory.allAbove a m = true) :
    ∀ e ∈ m, a < e.1 := by simpa [Memory.allAbove] using h

/-- Below every listed index a memory reads as an unlisted element. -/
theorem Memory.read_below {a : Nat} {m : Memory w} (h : ∀ e ∈ m, a < e.1) :
    Memory.read m a = Memory.default w := by
  induction m with
  | nil => rfl
  | cons e m ih =>
    have h1 : a < e.1 := h e (by simp)
    rw [show e = (e.1, e.2) from rfl, Memory.read_tail (by omega)]
    exact ih fun x hx => h x (by simp [hx])

theorem Memory.wf_cons {e : Nat × BitVec w} {m : Memory w} :
    Memory.wf (e :: m) = true ↔ e.2 ≠ Memory.default w ∧ (∀ x ∈ m, e.1 < x.1) ∧ Memory.wf m = true := by
  simp [Memory.wf, Memory.allAbove, and_assoc]

/-! ### `Memory.cons` -/

theorem Memory.read_cons_same {a : Nat} (v : BitVec w) {m : Memory w} (h : ∀ e ∈ m, a < e.1) :
    Memory.read (Memory.cons a v m) a = v := by
  unfold Memory.cons
  split
  · rename_i hv
    rw [Memory.read_below h, hv]
  · simp

theorem Memory.read_cons_ne {a b : Nat} (hab : b ≠ a) (v : BitVec w) (m : Memory w) :
    Memory.read (Memory.cons a v m) b = Memory.read m b := by
  unfold Memory.cons
  split
  · rfl
  · exact Memory.read_tail hab v m

theorem Memory.mem_cons {a : Nat} {v : BitVec w} {m : Memory w} {e : Nat × BitVec w}
    (h : e ∈ Memory.cons a v m) : e = (a, v) ∨ e ∈ m := by
  unfold Memory.cons at h
  split at h
  · exact .inr h
  · simpa using h

theorem Memory.wf_cons_default {a : Nat} {v : BitVec w} {m : Memory w} (h : ∀ e ∈ m, a < e.1)
    (hm : Memory.wf m = true) : Memory.wf (Memory.cons a v m) = true := by
  unfold Memory.cons
  split
  · exact hm
  · rename_i hv
    exact Memory.wf_cons.mpr ⟨hv, h, hm⟩

/-! ### Writing -/

/-- What an entry of a written memory can be. -/
theorem Memory.mem_write {m : Memory w} {a : Nat} {v : BitVec w} {e : Nat × BitVec w}
    (h : e ∈ Memory.write m a v) : e = (a, v) ∨ e ∈ m := by
  induction m with
  | nil => simpa using Memory.mem_cons h
  | cons x m ih =>
    rw [show x = (x.1, x.2) from rfl] at h
    simp only [Memory.write] at h
    split at h
    · simpa using Memory.mem_cons h
    · split at h
      · rcases Memory.mem_cons h with h | h
        · exact .inl h
        · exact .inr (by simp [h])
      · rcases List.mem_cons.mp h with h | h
        · exact .inr (by simp [h])
        · rcases ih h with h | h
          · exact .inl h
          · exact .inr (by simp [h])

/-- A write keeps the canonical form. -/
theorem Memory.wf_write {m : Memory w} (hm : Memory.wf m = true) (a : Nat) (v : BitVec w) :
    Memory.wf (Memory.write m a v) = true := by
  induction m with
  | nil => exact Memory.wf_cons_default (by simp) rfl
  | cons x m ih =>
    obtain ⟨hx, hgt, hm'⟩ := Memory.wf_cons.mp hm
    rw [show x = (x.1, x.2) from rfl]
    simp only [Memory.write]
    split
    · rename_i hlt
      refine Memory.wf_cons_default ?_ hm
      intro e he
      rcases List.mem_cons.mp he with rfl | he
      · exact hlt
      · exact Nat.lt_trans hlt (hgt e he)
    · split
      · rename_i h1 h2
        exact Memory.wf_cons_default (fun e he => h2 ▸ hgt e he) hm'
      · rename_i h1 h2
        refine Memory.wf_cons.mpr ⟨hx, ?_, ih hm'⟩
        intro e he
        rcases Memory.mem_write he with rfl | he
        · show x.1 < a
          omega
        · exact hgt e he

/-- A read of the written element gives the value written. -/
theorem Memory.read_write_same {m : Memory w} (hm : Memory.wf m = true) (a : Nat) (v : BitVec w) :
    Memory.read (Memory.write m a v) a = v := by
  induction m with
  | nil => exact Memory.read_cons_same v (by simp)
  | cons x m ih =>
    obtain ⟨-, hgt, hm'⟩ := Memory.wf_cons.mp hm
    rw [show x = (x.1, x.2) from rfl]
    simp only [Memory.write]
    split
    · rename_i hlt
      refine Memory.read_cons_same v ?_
      intro e he
      rcases List.mem_cons.mp he with rfl | he
      · exact hlt
      · exact Nat.lt_trans hlt (hgt e he)
    · split
      · rename_i h1 h2
        exact Memory.read_cons_same v (fun e he => h2 ▸ hgt e he)
      · rename_i h1 h2
        rw [Memory.read_tail h2]
        exact ih hm'

/-- A write leaves every other element alone (in any list, canonical or not). -/
theorem Memory.read_write_ne {a b : Nat} (hab : b ≠ a) (m : Memory w) (v : BitVec w) :
    Memory.read (Memory.write m a v) b = Memory.read m b := by
  induction m with
  | nil => exact Memory.read_cons_ne hab v []
  | cons x m ih =>
    rw [show x = (x.1, x.2) from rfl]
    simp only [Memory.write]
    split
    · exact Memory.read_cons_ne hab v _
    · split
      · rename_i h1 h2
        rw [Memory.read_cons_ne hab, Memory.read_tail (by omega)]
      · by_cases h : b = x.1
        · subst h
          exact (Memory.read_head _ x.2 _).trans (Memory.read_head _ x.2 _).symm
        · rw [Memory.read_tail h, Memory.read_tail h, ih]

theorem Memory.within_write {n : Nat} {m : Memory w} (hm : Memory.within n m = true) {a : Nat} (ha : a < n)
    (v : BitVec w) : Memory.within n (Memory.write m a v) = true := by
  simp only [Memory.within, List.all_eq_true, decide_eq_true_eq] at hm ⊢
  intro e he
  rcases Memory.mem_write he with rfl | he
  · exact ha
  · exact hm e he

/-! ### Clearing -/

theorem Memory.wf_filter (f : Nat × BitVec w → Bool) {m : Memory w} (hm : Memory.wf m = true) :
    Memory.wf (m.filter f) = true := by
  induction m with
  | nil => rfl
  | cons x m ih =>
    obtain ⟨hx, hgt, hm'⟩ := Memory.wf_cons.mp hm
    simp only [List.filter_cons]
    split
    · exact Memory.wf_cons.mpr ⟨hx, fun e he => hgt e (List.mem_filter.mp he).1, ih hm'⟩
    · exact ih hm'

theorem Memory.wf_clearBelow (n : Nat) {m : Memory w} (hm : Memory.wf m = true) :
    Memory.wf (Memory.clearBelow n m) = true := Memory.wf_filter _ hm

theorem Memory.within_clearBelow (n : Nat) {k : Nat} {m : Memory w} (hm : Memory.within k m = true) :
    Memory.within k (Memory.clearBelow n m) = true := by
  simp only [Memory.within, List.all_eq_true, decide_eq_true_eq] at hm ⊢
  exact fun e he => hm e (List.mem_filter.mp he).1

/-- Below `n` a cleared memory reads as an unlisted element, from `n` on it reads as before. -/
theorem Memory.read_clearBelow (n a : Nat) (m : Memory w) :
    Memory.read (Memory.clearBelow n m) a = if a < n then Memory.default w else Memory.read m a := by
  induction m with
  | nil => simp [Memory.clearBelow]
  | cons x m ih =>
    rw [show x = (x.1, x.2) from rfl]
    simp only [Memory.clearBelow, List.filter_cons] at ih ⊢
    by_cases hn : n ≤ x.1
    · simp only [hn, decide_true, if_true]
      by_cases ha : a = x.1
      · subst ha
        rw [Memory.read_head, Memory.read_head, if_neg (by omega)]
      · rw [Memory.read_tail ha, Memory.read_tail ha, ih]
    · simp only [hn, decide_false, Bool.false_eq_true, if_false]
      rw [ih]
      by_cases ha : a = x.1
      · rw [if_pos (by omega), if_pos (by omega)]
      · rw [Memory.read_tail ha]

/-! ### A memory from a list of values -/

theorem Memory.ofCells_fold (n : Nat) (cells : List (Nat × BitVec w)) (m : Memory w)
    (hc : ∀ e ∈ cells, e.1 < n) (hm : Memory.wf m = true) (hn : Memory.within n m = true) :
    Memory.wf (cells.foldl (fun m e => Memory.write m e.1 e.2) m) = true ∧
      Memory.within n (cells.foldl (fun m e => Memory.write m e.1 e.2) m) = true := by
  induction cells generalizing m with
  | nil => exact ⟨hm, hn⟩
  | cons e cells ih =>
    exact ih _ (fun x hx => hc x (by simp [hx])) (Memory.wf_write hm _ _)
      (Memory.within_write hn (hc e (by simp)) _)

/-- Whatever the values, the memory is canonical and within its depth. -/
theorem Memory.ofCells_ok (n : Nat) (cells : List (Nat × BitVec w)) :
    Memory.wf (Memory.ofCells n cells) = true ∧ Memory.within n (Memory.ofCells n cells) = true := by
  refine Memory.ofCells_fold n _ [] ?_ rfl rfl
  intro e he
  simpa using (List.mem_filter.mp he).2

end Sys2Proof.Machine
end

