-- ==== Sys2Proof/Laws/Ops.lean ====
section
/-! SUPPORT. What the shared operations can do, once each: acceptance, error entry, the clamped write, an agent's step. -/
namespace Sys2Proof.Machine

/-! ### Acceptance on port A -/

theorem whenAccepted_free {s t : State} (h : s.lc ≠ .busy) : whenAccepted s t = .next t := if_neg h

theorem whenAccepted_held {s t : State} (h : s.lc = .busy) : whenAccepted s t = .next s := if_pos h

/-- Acceptance answers a next state: the effect's, or, while a block runs, the same state. -/
theorem whenAccepted_cases {s t u : State} (h : whenAccepted s t = .next u) :
    (s.lc ≠ .busy ∧ u = t) ∨ (s.lc = .busy ∧ u = s) := by
  unfold whenAccepted at h
  split at h
  · exact .inr ⟨‹_›, by injection h with h; exact h.symm⟩
  · exact .inl ⟨‹_›, by injection h with h; exact h.symm⟩

/-! ### Error entry -/

/-- A configuration error: the code, the sticky bit, `UNPREPARED`, and the DSP state lost. -/
theorem raiseError_config {e : ErrorKind} (h : isConfigError e = true) (s : State) :
    raiseError e s = { s.loseDsp with errCode := errorCode e, cfgErr := true, lc := .unprepared } := if_pos h

/-- A sequence error: the code and the sticky bit. -/
theorem raiseError_sequence {e : ErrorKind} (h : isConfigError e = false) (s : State) :
    raiseError e s = { s with errCode := errorCode e, seqErr := true } := by simp [raiseError, h]

/-! ### The clamped write -/

/-- A NaN is dropped. -/
theorem setClamp_nan {w : Word} (h : isNaN32 w = true) (id : Fin 8) (s : State) : setClamp id w s = s := if_pos h

/-- Any other word stores the clamped value. -/
theorem setClamp_value {w : Word} (h : isNaN32 w = false) (id : Fin 8) (s : State) :
    setClamp id w s = { s with holder := s.holder.set id (clampedValue id w) } := by simp [setClamp, h, State.setHolder]

/-- The holders after a write: the one named by `id` alone may differ. -/
theorem setClamp_holder_ne {id j : Fin 8} (h : j ≠ id) (w : Word) (s : State) :
    (setClamp id w s).holder[j] = s.holder[j] := by
  have h' : (id : Nat) ≠ (j : Nat) := fun e => h (Fin.ext e.symm)
  unfold setClamp
  split
  · rfl
  · simp [h']

/-- The clamped write changes the holders and nothing else. -/
theorem setClamp_eq (id : Fin 8) (w : Word) (s : State) :
    setClamp id w s = { s with holder := (setClamp id w s).holder } := by
  unfold setClamp
  split <;> rfl

/-! ### The agents -/

theorem step_eq (s : State) : step s = agentStep (chosenAgent s) { s with schedule := s.schedule.tail } := rfl

/-- What the audio host's step can do: nothing waits, the oldest transaction is held, or it is accepted. -/
theorem stepAudio_cases (s : State) :
    (s.portA = [] ∧ stepAudio s = .next s) ∨
    (∃ a rest, s.portA = a :: rest ∧ heldOnA s (decode (portAWord a)) = true ∧ stepAudio s = .next s) ∨
    (∃ a rest, s.portA = a :: rest ∧ heldOnA s (decode (portAWord a)) = false ∧
      stepAudio s = runDecoded (decode (portAWord a)) { s with portA := rest }) := by
  unfold stepAudio
  split
  · rename_i h
    exact .inl ⟨h, rfl⟩
  · rename_i a rest h
    cases hh : heldOnA s (decode (portAWord a))
    · exact .inr (.inr ⟨a, rest, h, hh, by simp⟩)
    · exact .inr (.inl ⟨a, rest, h, hh, by simp⟩)

/-- What the control host's step can do: nothing waits, or the oldest transaction is accepted. -/
theorem stepControl_cases (s : State) :
    (s.portC = [] ∧ stepControl s = .next s) ∨
    (∃ c rest, s.portC = c :: rest ∧
      stepControl s = runDecoded (decode (portCWord c)) { s with portC := rest }) := by
  unfold stepControl
  split
  · rename_i h
    exact .inl ⟨h, rfl⟩
  · rename_i c rest h
    exact .inr ⟨c, rest, h, rfl⟩

/-- What the sequencer's step can do. -/
theorem stepSequencer_cases (s : State) :
    (s.lc ≠ .busy ∧ stepSequencer s = .next s) ∨
    (s.lc = .busy ∧ s.ctx.phase = .start ∧ stepSequencer s = .next (blockStart hardwareNum s)) ∨
    (s.lc = .busy ∧ s.ctx.phase = .frames ∧ stepSequencer s = .next (frame hardwareNum s)) ∨
    (s.lc = .busy ∧ s.ctx.phase = .finish ∧ stepSequencer s = .next (blockEnd s)) := by
  unfold stepSequencer
  by_cases h : s.lc = .busy
  · cases hp : s.ctx.phase <;> simp [h, hp, exec, execBlockStart, execFrame, execBlockEnd]
  · simp [h]

end Sys2Proof.Machine
end

