-- ==== Sys2Proof/Laws/PerInstr.lean ====
section
/-! SUPPORT. A property of every instruction as syntax, one lemma for each constructor. -/
namespace Sys2Proof.Laws.EncodedPort

/-- An instruction has a transaction word exactly when a host issues it, and the word's bit 49 names its port
(30_encoding.md R70, R71, R87). -/
def Statement (i : Instr) : Prop :=
  (encode i = none ↔ i.port = none) ∧ ∀ t, encode i = some t → (t.isPortC = true ↔ i.port = some .c)

/-- An instruction issued on port A. -/
theorem of_portA {i : Instr} {write : Bool} {addr : BitVec 16} {data : Word}
    (h : encode i = some (TWord.make false write addr data)) (hp : i.port = some .a) : Statement i := by
  refine ⟨by simp [h, hp], fun t ht => ?_⟩
  rw [h, Option.some.injEq] at ht
  subst ht
  simp [hp]

/-- An instruction issued on port C. -/
theorem of_portC {i : Instr} {write : Bool} {addr : BitVec 16} {data : Word}
    (h : encode i = some (TWord.make true write addr data)) (hp : i.port = some .c) : Statement i := by
  refine ⟨by simp [h, hp], fun t ht => ?_⟩
  rw [h, Option.some.injEq] at ht
  subst ht
  simp [hp]

/-- An instruction no transaction selects. -/
theorem of_none {i : Instr} (h : encode i = none) (hp : i.port = none) : Statement i :=
  ⟨by simp [h, hp], fun t ht => by simp [h] at ht⟩

theorem cmdPrepare : Statement .cmdPrepare := of_portA rfl rfl
theorem cmdProcess : Statement .cmdProcess := of_portA rfl rfl
theorem cmdRelease : Statement .cmdRelease := of_portA rfl rfl
theorem wrFsLo (data : Word) : Statement (.wrFsLo data) := of_portA rfl rfl
theorem wrFsHi (data : Word) : Statement (.wrFsHi data) := of_portA rfl rfl
theorem wrMaxBlk (data : Word) : Statement (.wrMaxBlk data) := of_portA rfl rfl
theorem wrNch (data : Word) : Statement (.wrNch data) := of_portA rfl rfl
theorem wrNumSamp (data : Word) : Statement (.wrNumSamp data) := of_portA rfl rfl
theorem rdStatus : Statement .rdStatus := of_portA rfl rfl
theorem rdFsLo : Statement .rdFsLo := of_portA rfl rfl
theorem rdFsHi : Statement .rdFsHi := of_portA rfl rfl
theorem rdMaxBlk : Statement .rdMaxBlk := of_portA rfl rfl
theorem rdNch : Statement .rdNch := of_portA rfl rfl
theorem rdNumSamp : Statement .rdNumSamp := of_portA rfl rfl
theorem wrBlk0 (idx : BitVec 13) (data : Word) : Statement (.wrBlk0 idx data) := of_portA rfl rfl
theorem wrBlk1 (idx : BitVec 13) (data : Word) : Statement (.wrBlk1 idx data) := of_portA rfl rfl
theorem rdBlk0 (idx : BitVec 13) : Statement (.rdBlk0 idx) := of_portA rfl rfl
theorem rdBlk1 (idx : BitVec 13) : Statement (.rdBlk1 idx) := of_portA rfl rfl
theorem setWowDepth (data : Word) : Statement (.setWowDepth data) := of_portC rfl rfl
theorem setLowCutFreq (data : Word) : Statement (.setLowCutFreq data) := of_portC rfl rfl
theorem setLowCutQ (data : Word) : Statement (.setLowCutQ data) := of_portC rfl rfl
theorem setHighCutFreq (data : Word) : Statement (.setHighCutFreq data) := of_portC rfl rfl
theorem setHighCutQ (data : Word) : Statement (.setHighCutQ data) := of_portC rfl rfl
theorem setDrive (data : Word) : Statement (.setDrive data) := of_portC rfl rfl
theorem setTone (data : Word) : Statement (.setTone data) := of_portC rfl rfl
theorem setBypass (data : Word) : Statement (.setBypass data) := of_portC rfl rfl
theorem getParam (id : BitVec 3) : Statement (.getParam id) := of_portC rfl rfl
theorem blockStart : Statement .blockStart := of_none rfl rfl
theorem frame : Statement .frame := of_none rfl rfl
theorem blockEnd : Statement .blockEnd := of_none rfl rfl
theorem illegalCmd (data : Word) : Statement (.illegalCmd data) := of_portA rfl rfl
theorem smoothCoef (p : Fin 7) : Statement (.smoothCoef p) := of_none rfl rfl
theorem smoothTick (p : Fin 7) : Statement (.smoothTick p) := of_none rfl rfl
theorem smoothSnap (p : Fin 7) : Statement (.smoothSnap p) := of_none rfl rfl
theorem bqClamp (f q : F64) : Statement (.bqClamp f q) := of_none rfl rfl
theorem bqCoefLp (f q : F64) : Statement (.bqCoefLp f q) := of_none rfl rfl
theorem bqCoefHp (f q : F64) : Statement (.bqCoefHp f q) := of_none rfl rfl
theorem bqNorm (raw : RawSet) : Statement (.bqNorm raw) := of_none rfl rfl
theorem bqCheck (F : FilterId) (k : Coefs) : Statement (.bqCheck F k) := of_none rfl rfl
theorem bqStep (F : FilterId) (c : Chan) (x : F64) : Statement (.bqStep F c x) := of_none rfl rfl
theorem bqReset (F : FilterId) : Statement (.bqReset F) := of_none rfl rfl
theorem satSet (drv : F64) : Statement (.satSet drv) := of_none rfl rfl
theorem satStep (c : Chan) (x : F64) : Statement (.satStep c x) := of_none rfl rfl
theorem satReset : Statement .satReset := of_none rfl rfl
theorem toneSet (tone : F64) : Statement (.toneSet tone) := of_none rfl rfl
theorem shelfPre (f gainDb : F64) : Statement (.shelfPre f gainDb) := of_none rfl rfl
theorem shelfCoefLo (f gainDb : F64) : Statement (.shelfCoefLo f gainDb) := of_none rfl rfl
theorem shelfCoefHi (f gainDb : F64) : Statement (.shelfCoefHi f gainDb) := of_none rfl rfl
theorem wowInit : Statement .wowInit := of_none rfl rfl
theorem wowLfo : Statement .wowLfo := of_none rfl rfl
theorem wowDelay (lfo : F64) : Statement (.wowDelay lfo) := of_none rfl rfl
theorem wowStep (c : Chan) (x : F64) (i : Nat) (frac : F64) : Statement (.wowStep c x i frac) := of_none rfl rfl
theorem wowRead (c : Chan) (i : Nat) (frac : F64) : Statement (.wowRead c i frac) := of_none rfl rfl
theorem wowWrite (c : Chan) (x : F64) : Statement (.wowWrite c x) := of_none rfl rfl
theorem wowAdvance : Statement .wowAdvance := of_none rfl rfl
theorem inCond (w : Word) : Statement (.inCond w) := of_none rfl rfl
theorem outCond (x : F64) : Statement (.outCond x) := of_none rfl rfl

end Sys2Proof.Laws.EncodedPort
end

