-- ==== Sys2Proof/Tests/Slice0.lean ====
section
/-! SUPPORT. Tests. Expected values come from spec/95_test_vectors.md (its section is named at each group), from the
encoding tables of 30_encoding.md, or, where said, from mathematics; decimals are given as the binary64 pattern that
reads back to them. At the end: a witness for every statement that has hypotheses. -/
namespace Sys2Proof.Tests

-- One theorem after another: a queue of kernel evaluations would hold a thread each.
set_option Elab.async false

open Sys2Proof Sys2Proof.Machine

/-! ### Well-formedness: one ill-formed term for each check -/

theorem test_wf_illegalCmd : Instr.wellFormed (.illegalCmd 1#32) = false ∧ Instr.wellFormed (.illegalCmd 2#32) = false ∧
    Instr.wellFormed (.illegalCmd 3#32) = false ∧ Instr.wellFormed (.illegalCmd 0x101#32) = true := by decide

theorem test_wf_bqStep_nan : Instr.wellFormed (.bqStep .lcf .c0 0x7FF8000000000000#64) = false := by decide
theorem test_wf_satStep_inf : Instr.wellFormed (.satStep .c1 0xFFF0000000000000#64) = false := by decide
theorem test_wf_wowWrite_inf : Instr.wellFormed (.wowWrite .c0 0x7FF0000000000000#64) = false := by decide
theorem test_wf_outCond_nan : Instr.wellFormed (.outCond 0xFFF8000000000001#64) = false := by decide
theorem test_wf_wowStep_input : Instr.wellFormed (.wowStep .c0 0x7FF0000000000000#64 1 0#64) = false := by decide
theorem test_wf_wowStep_delay : Instr.wellFormed (.wowStep .c0 0#64 0 0#64) = false ∧
    Instr.wellFormed (.wowStep .c0 0#64 9601 0#64) = false ∧ Instr.wellFormed (.wowStep .c0 0#64 9600 0#64) = true := by
  decide
theorem test_wf_wowStep_frac : Instr.wellFormed (.wowStep .c0 0#64 1 0x3FF0000000000000#64) = false := by decide
theorem test_wf_wowRead_delay : Instr.wellFormed (.wowRead .c1 0 0#64) = false ∧
    Instr.wellFormed (.wowRead .c1 9601 0#64) = false := by decide
theorem test_wf_wowRead_frac : Instr.wellFormed (.wowRead .c1 1 0x3FF0000000000000#64) = false ∧
    Instr.wellFormed (.wowRead .c1 1 0xBFE0000000000000#64) = false ∧
    Instr.wellFormed (.wowRead .c1 1 0x3FEFFFFFFFFFFFFF#64) = true := by decide

/-! ### Decoding: words written out from 30_encoding.md R71 to R79 (spec/95_test_vectors.md 2.1 and 3) -/

theorem test_decode_commands : decode 0x1000000000001#50 = .op .cmdPrepare ∧
    decode 0x1000000000002#50 = .op .cmdProcess ∧ decode 0x1000000000003#50 = .op .cmdRelease ∧
    decode 0x1000000000101#50 = .op (.illegalCmd 0x101#32) ∧ decode 0x1000000000000#50 = .op (.illegalCmd 0#32) ∧
    decode 0x1000000000102#50 = .op (.illegalCmd 0x102#32) ∧ decode 0x1000000000004#50 = .op (.illegalCmd 4#32) := by
  decide

theorem test_decode_register_writes : decode 0x1000200000001#50 = .op (.wrFsLo 1#32) ∧
    decode 0x1000340E77000#50 = .op (.wrFsHi 0x40E77000#32) ∧
    decode 0x10004FFFFFFFF#50 = .op (.wrMaxBlk 0xFFFFFFFF#32) ∧ decode 0x1000500000002#50 = .op (.wrNch 2#32) ∧
    decode 0x1000600000008#50 = .op (.wrNumSamp 8#32) := by decide

theorem test_decode_register_reads : decode 0x0000112345678#50 = .op .rdStatus ∧
    decode 0x0000200000000#50 = .op .rdFsLo ∧ decode 0x0000300000000#50 = .op .rdFsHi ∧
    decode 0x0000400000000#50 = .op .rdMaxBlk ∧ decode 0x0000500000000#50 = .op .rdNch ∧
    decode 0x0000600000000#50 = .op .rdNumSamp := by decide

theorem test_decode_blocks : decode 0x140003F800000#50 = .op (.wrBlk0 0#13 0x3F800000#32) ∧
    decode 0x15FFF3F800000#50 = .op (.wrBlk0 8191#13 0x3F800000#32) ∧
    decode 0x18000BE800000#50 = .op (.wrBlk1 0#13 0xBE800000#32) ∧
    decode 0x0400700000000#50 = .op (.rdBlk0 7#13) ∧ decode 0x09FFF00000000#50 = .op (.rdBlk1 8191#13) := by decide

theorem test_decode_parameters : decode 0x300103FC00000#50 = .op (.setWowDepth 0x3FC00000#32) ∧
    decode 0x30011447A0000#50 = .op (.setLowCutFreq 0x447A0000#32) ∧
    decode 0x3001240A00000#50 = .op (.setLowCutQ 0x40A00000#32) ∧
    decode 0x30013459C3FEC#50 = .op (.setHighCutFreq 0x459C3FEC#32) ∧
    decode 0x300143F34FDF4#50 = .op (.setHighCutQ 0x3F34FDF4#32) ∧
    decode 0x300153E800000#50 = .op (.setDrive 0x3E800000#32) ∧
    decode 0x30016C0400000#50 = .op (.setTone 0xC0400000#32) ∧
    decode 0x300173F000000#50 = .op (.setBypass 0x3F000000#32) ∧
    decode 0x2001300000000#50 = .op (.getParam 3#3) := by decide

theorem test_decode_reserved_portA : decode 0x0000000000000#50 = .reservedRead .a ∧
    decode 0x10001FFFFFFFF#50 = .reservedWrite .a ∧ decode 0x1000700000000#50 = .reservedWrite .a ∧
    decode 0x100103F800000#50 = .reservedWrite .a ∧ decode 0x13FFF00000000#50 = .reservedWrite .a ∧
    decode 0x1600000000000#50 = .reservedWrite .a ∧ decode 0x17FFF00000000#50 = .reservedWrite .a ∧
    decode 0x1A00000000000#50 = .reservedWrite .a ∧ decode 0x0600000000000#50 = .reservedRead .a := by decide

theorem test_decode_reserved_portC : decode 0x3000F00000000#50 = .reservedWrite .c ∧
    decode 0x3001800000000#50 = .reservedWrite .c ∧ decode 0x3400000000000#50 = .reservedWrite .c ∧
    decode 0x2000000000000#50 = .reservedRead .c := by decide

/-- The match and mask check of 2.1. -/
theorem test_decode_table : decodeByTable 0x15FFF3F800000#50 = some (.wrBlk0 8191#13 0x3F800000#32) ∧
    decodeByTable 0x300173F000000#50 = some (.setBypass 0x3F000000#32) ∧
    decodeByTable 0x2001300000000#50 = some (.getParam 3#3) ∧
    decodeByTable 0x1000000000101#50 = some (.illegalCmd 0x101#32) := by decide

theorem test_decodeTableWord : decodeTableWord 56 0x1000000000001 = some .cmdPrepare ∧
    decodeTableWord 56 0x0000000000000 = none := by decide

/-! ### Constants: the patterns of Config against their decimals `p / q` (00_scope.md R5 to R7) -/

/-- The binary64 nearest to `p / q`. -/
def decimal (p q : Nat) : F64 := packF64 false (nearestMag 52 infMag (p * unitsPerOne) q)

/-- The binary32 nearest to `p / q`, in units of 2^-149. -/
def decimal32 (p q : Nat) : Word := packF32 false (nearestMag 23 inf32Mag (p * 2 ^ 149) q)

theorem test_constants_fixed : Config.tWow = decimal 50 1000 ∧ Config.tFilt = decimal 20 1000 ∧
    Config.tDrive = decimal 30 1000 ∧ Config.tTone = decimal 20 1000 ∧ Config.qButterworth = decimal 707 1000 ∧
    Config.driveSpan = decimal 9 1 ∧ Config.satEps = decimal 1 1000 ∧
    Config.flushThreshold = decimal 1 1000000000000000 ∧ Config.toneDbSpan = decimal 6 1 ∧
    Config.lowShelfHz = decimal 250 1 ∧ Config.highShelfHz = decimal 5000 1 ∧ Config.lfoHz = decimal 1 2 ∧
    Config.baseDelayMs = decimal 5 1 ∧ Config.maxModMs = decimal 45 1 ∧ Config.bufCapMs = decimal 50 1 ∧
    Config.fsMax = decimal 192000 1 := by decide +kernel

theorem test_constants_chosen : Config.fsMin = decimal 1 1 ∧ Config.fNyqFrac = decimal 49 100 ∧
    Config.fMinHz = decimal 1 1 ∧ Config.satFcHi = decimal 20000 1 ∧ Config.satFcLo = decimal 5000 1 ∧
    Config.dMinSamples = decimal 1 1 ∧ Config.bypassThreshold = decimal32 1 2 ∧ Config.qMin = decimal 1 10 ∧
    Config.qMax = decimal 2 1 ∧ forty = decimal 40 1 ∧ thousand = decimal 1000 1 := by decide +kernel

theorem test_constants_parameters :
    Config.lo = #v[0#32, decimal32 20 1, decimal32 1 10, decimal32 5000 1, decimal32 1 10, 0#32,
      0x80000000#32 ||| decimal32 1 1, 0#32] ∧
    Config.hi = #v[decimal32 1 1, decimal32 200 1, decimal32 2 1, decimal32 20000 1, decimal32 2 1, decimal32 1 1,
      decimal32 1 1, decimal32 1 1] ∧
    Config.default = #v[0#32, decimal32 20 1, decimal32 707 1000, decimal32 20000 1, decimal32 707 1000, 0#32, 0#32,
      0#32] := by decide +kernel

/-! ### Arithmetic: corner cases of IEEE-754 and of 00_scope.md R12, R13 -/

theorem test_float_rounding : fadd 0x3FF0000000000000#64 0x3CA0000000000000#64 = 0x3FF0000000000000#64 ∧
    fadd 0x3FF0000000000001#64 0x3CA0000000000000#64 = 0x3FF0000000000002#64 ∧
    fsub 0x3FF0000000000000#64 0x3C90000000000000#64 = 0x3FF0000000000000#64 ∧
    fmul 0x3FB999999999999A#64 0x4008000000000000#64 = 0x3FD3333333333334#64 ∧
    fdiv 0x3FF0000000000000#64 0x4008000000000000#64 = 0x3FD5555555555555#64 ∧
    fsqrt 0x4000000000000000#64 = 0x3FF6A09E667F3BCD#64 := by decide +kernel

theorem test_float_zeros : fadd negZero negZero = negZero ∧ fadd one negOne = posZero ∧ fsub posZero posZero = posZero ∧
    fmul negOne posZero = negZero ∧ fdiv one negZero = 0xFFF0000000000000#64 ∧ fsqrt negZero = negZero := by
  decide +kernel

theorem test_float_range : fmul 0x7FEFFFFFFFFFFFFF#64 two = 0x7FF0000000000000#64 ∧
    fmul 0x0000000000000001#64 0x3FE0000000000000#64 = posZero ∧
    fadd 0x0010000000000000#64 0x8000000000000001#64 = 0x000FFFFFFFFFFFFF#64 := by decide +kernel

theorem test_float_nan : isNaN (fdiv posZero posZero) = true ∧
    isNaN (fsub 0x7FF0000000000000#64 0x7FF0000000000000#64) = true ∧ isNaN (fsqrt negOne) = true ∧
    flt 0x7FF8000000000000#64 one = false ∧ fge 0x7FF8000000000000#64 one = false ∧
    clamp 0x7FF8000000000000#64 posZero one = 0x7FF8000000000000#64 := by
  have h0 : fdiv posZero posZero = nanF64 2 posZero posZero := by
    rw [fdiv, if_neg (by decide), if_neg (by decide), if_neg (by decide), if_pos (by decide), if_pos (by decide)]
  have h1 : fsub 0x7FF0000000000000#64 0x7FF0000000000000#64 =
      nanF64 0 0x7FF0000000000000#64 (fneg 0x7FF0000000000000#64) := by
    rw [fsub, fadd, if_neg (by decide), if_pos (by decide), if_pos (by decide)]
  have h2 : fsqrt negOne = nanF64 3 negOne negOne := by
    rw [fsqrt, if_neg (by decide), if_neg (by decide), if_pos (by decide)]
  rw [h0, h1, h2]
  exact ⟨isNaN_nanF64 _ _ _, isNaN_nanF64 _ _ _, isNaN_nanF64 _ _ _, by decide +kernel, by decide +kernel,
    by decide +kernel⟩

/-- 2.4: the two sides of the threshold. -/
theorem test_flush : flush 0x3CD203AF9EE75616#64 = 0x3CD203AF9EE75616#64 ∧ flush 0x3CD203AF9EE75615#64 = posZero ∧
    flush negZero = posZero ∧ sanitize 0xFFF0000000000000#64 = posZero := by decide +kernel

theorem test_floor_ceil : floorF64 0x406B900000000000#64 = 220 ∧ ceilF64 0x406B900000000000#64 = 221 ∧
    floorF64 0xBFE0000000000000#64 = -1 ∧ ceilF64 0x406E000000000000#64 = 240 ∧
    floatOf 240 = 0x406E000000000000#64 := by decide +kernel

/-! ### NUM: the bracket contains the reference value (00_scope.md R14(a)) -/

/-- `p <= m <= p + 1` for the magnitude pattern `m`. -/
def Within (b : Bracket) (m : Nat) : Prop := b.below ≤ m ∧ m ≤ b.above ∧ b.above ≤ b.below + 1

/-- 2.4: `tanh(1)` and `tanh(3.25)`. -/
theorem test_num_tanh : Within (tanhBracket 0x3FF0000000000000 (F64.units one)) 0x3FE85EFAB514F394 ∧
    Within (tanhBracket 0x400A000000000000 (F64.units 0x400A000000000000#64)) 0x3FEFE76795D353A0 := by
  unfold Within; decide +kernel

/-- 2.5: `10^(6/40)` and `10^(-6/40)`. -/
theorem test_num_pow10 : Within (pow10Bracket false (F64.units (fdiv Config.toneDbSpan forty))) 0x3FF699C0F7E86E10 ∧
    Within (pow10Bracket true (F64.units (fdiv Config.toneDbSpan forty))) 0x3FE6A77DEAE8AB8A := by
  unfold Within; decide +kernel

/-- Mathematics: `e = 2.718281828459045...`, `1/e = 0.36787944117144232...`. -/
theorem test_num_exp : Within (expBracket false unitsPerOne) 0x4005BF0A8B145769 ∧
    Within (expBracket true unitsPerOne) 0x3FD78B56362CEF38 := by unfold Within; decide +kernel

/-- Mathematics: of the binary64 nearest to `π/6` the sine is 0.5 and the cosine `sqrt(3)/2` but for rounding; of the
one nearest to `π` the sine is `1.2246467991473532e-16`; the cosine of that is negative. -/
theorem test_num_sin_cos : Within (sinBracket 0x3FE0C152382D7366
    (F64.units 0x3FE0C152382D7366#64)).2 0x3FE0000000000000 ∧
    Within (cosBracket (F64.units 0x3FE0C152382D7366#64)).2 0x3FEBB67AE8584CAB ∧
    Within (sinBracket 0x400921FB54442D18 (F64.units Config.pi)).2 0x3CA1A62633145C07 ∧
    (sinBracket 0x400921FB54442D18 (F64.units Config.pi)).1 = false ∧ (cosBracket (F64.units Config.pi)).1 = true := by
  unfold Within; decide +kernel

/-- R14(b), (d), (e): exact points, symmetry and special operands. -/
theorem test_num_exact : numSin posZero = posZero ∧ numSin negZero = negZero ∧ numCos posZero = one ∧
    numExp posZero = one ∧ numTanh negZero = negZero ∧ numPow10 negZero = one ∧
    numExp 0xFFF0000000000000#64 = posZero ∧ numTanh 0xFFF0000000000000#64 = negOne ∧
    numTanh 0x7FF0000000000000#64 = one := by decide +kernel

/-! ### Small states -/

/-- The state after an operation. -/
def after (i : Instr) (s : State) : State :=
  match exec i s with
  | .next t => t
  | .fault _ => s
  | .refused _ => s

/-- The word port A answers. -/
def readA (i : Instr) (s : State) : Word := (after i s).replyA

/-- A prepared, idle core: 48 kHz, blocks of up to 512 frames, two channels. -/
def ready : State :=
  { State.reset with
    lc := .idle
    dsp := { Dsp.zero with
      fs := 0x40E7700000000000#64, maxBlk := 512, nch := 2, len := 2401, phaseInc := 0x3F112843CF07A12C#64
      lcf := Biquad.resetValue, lsf := Biquad.resetValue, hsf := Biquad.resetValue, hcf := Biquad.resetValue
      sat := Saturation.resetValue } }

/-- The same core inside a block of `n` frames. -/
def busyAt (ph : BlockPhase) (n idx : Nat) (byp : Bool) : State := { ready with lc := .busy, ctx := ⟨n, idx, ph, byp⟩ }

/-- `s` with Bypass on. -/
def bypassed (s : State) : State := { s with holder := s.holder.set 7 0x3F800000#32 }

/-- `s` with the words PREPARE reads. -/
def withConfig (fs : F64) (maxBlk nch : Word) (s : State) : State :=
  { s with cfgFsLo := fs.setWidth 32, cfgFsHi := fs.extractLsb' 32 32, cfgMaxBlk := maxBlk, cfgNch := nch }

/-- `s` with a sample rate active. -/
def atRate (fs : F64) (s : State) : State := { s with dsp := { s.dsp with fs := fs } }

/-! ### Host operations (2.8, 2.9) -/

theorem test_setclamp : ([
    (.setWowDepth 0x3FC00000#32, 0, 0x3F800000#32),
    (.setWowDepth 0x80000000#32, 0, 0x80000000#32),
    (.setWowDepth 0xBF800000#32, 0, 0x00000000#32),
    (.setLowCutFreq 0x3F000000#32, 1, 0x41A00000#32),
    (.setLowCutFreq 0x447A0000#32, 1, 0x43480000#32),
    (.setLowCutFreq 0x41A00000#32, 1, 0x41A00000#32),
    (.setLowCutQ 0x3DCCCCCD#32, 2, 0x3DCCCCCD#32),
    (.setLowCutQ 0x3D4CCCCD#32, 2, 0x3DCCCCCD#32),
    (.setLowCutQ 0x40A00000#32, 2, 0x40000000#32),
    (.setHighCutFreq 0x7F800000#32, 3, 0x469C4000#32),
    (.setHighCutFreq 0xFF800000#32, 3, 0x459C4000#32),
    (.setHighCutFreq 0x459C3FEC#32, 3, 0x459C4000#32),
    (.setHighCutQ 0x3F34FDF4#32, 4, 0x3F34FDF4#32),
    (.setDrive 0x3E800000#32, 5, 0x3E800000#32),
    (.setTone 0xC0400000#32, 6, 0xBF800000#32),
    (.setTone 0x3F800001#32, 6, 0x3F800000#32),
    (.setBypass 0x3F000000#32, 7, 0x3F800000#32),
    (.setBypass 0x3EFFFFFF#32, 7, 0x00000000#32),
    (.setBypass 0xBF800000#32, 7, 0x00000000#32),
    (.setBypass 0x40E00000#32, 7, 0x3F800000#32),
    (.setBypass 0x7F800000#32, 7,
        0x3F800000#32) ] : List (Instr × Fin 8 × Word)).all (fun r => decide
            ((after r.1 State.reset).holder[r.2.1] = r.2.2)) = true := by
  decide

theorem test_setclamp_nan_kept :
    (after (.setDrive 0x7FC00000#32) (after (.setDrive 0x3E800000#32) State.reset)).holder[5] = 0x3E800000#32 ∧
    (after (.setBypass 0x7FC00000#32) (bypassed State.reset)).holder[7] = 0x3F800000#32 := by decide

theorem test_getParam : (List.range 8).map (fun k => (after (.getParam (BitVec.ofNat 3 k)) State.reset).replyC) =
    [0x00000000#32, 0x41A00000#32, 0x3F34FDF4#32, 0x469C4000#32, 0x3F34FDF4#32, 0x00000000#32, 0x00000000#32,
      0x00000000#32] := by decide

theorem test_rdStatus : readA .rdStatus State.reset = 0x00000000#32 ∧ readA .rdStatus ready = 0x00000001#32 ∧
    readA .rdStatus (busyAt .start 4 0 false) = 0x00000003#32 := by decide

theorem test_prepare_validation : ([
    (0x40E7700000000000#64, 512#32, 2#32, 0x00000001#32),
    (0x3FF0000000000000#64, 0#32, 1#32, 0x00000001#32),
    (0x4107700000000000#64, 8192#32, 2#32, 0x00000001#32),
    (0x4107700000000001#64, 512#32, 2#32, 0x00000104#32),
    (0x3FEFFFFFFFFFFFFF#64, 512#32, 2#32, 0x00000104#32),
    (0x0000000000000000#64, 512#32, 2#32, 0x00000104#32),
    (0x8000000000000000#64, 512#32, 2#32, 0x00000104#32),
    (0xC0E7700000000000#64, 512#32, 2#32, 0x00000104#32),
    (0x7FF0000000000000#64, 512#32, 2#32, 0x00000104#32),
    (0x7FF8000000000000#64, 512#32, 2#32, 0x00000104#32),
    (0x40E7700000000000#64, 0xFFFFFFFF#32, 2#32, 0x00000204#32),
    (0x40E7700000000000#64, 8193#32, 2#32, 0x00000204#32),
    (0x40E7700000000000#64, 0x80000000#32, 2#32, 0x00000204#32),
    (0x40E7700000000000#64, 512#32, 0#32, 0x00000304#32),
    (0x40E7700000000000#64, 512#32, 3#32, 0x00000304#32),
    (0x40E7700000000000#64, 512#32, 0xFFFFFFFF#32, 0x00000304#32),
    (0x0000000000000000#64, 0xFFFFFFFF#32, 5#32, 0x00000104#32),
    (0x40E7700000000000#64, 9000#32, 0#32, 0x00000204#32) ] : List (F64 × Word × Word × Word)).all (fun r =>
      decide (statusWord (after .cmdPrepare (withConfig r.1 r.2.1 r.2.2.1 State.reset)) = r.2.2.2)) = true := by
  decide +kernel

/-- Program P1's start state, but for the smoother coefficients. -/
theorem test_prepare_state : (fun t : State =>
      t.lc = .idle ∧ t.dsp.fs = 0x40E7700000000000#64 ∧ t.dsp.maxBlk = 4 ∧ t.dsp.nch = 1 ∧ t.dsp.len = 2401 ∧
      t.dsp.smooth[2].cur = 0x3FE69FBE80000000#64 ∧ t.dsp.smooth[3].cur = 0x40D3880000000000#64 ∧
      t.dsp.hcf = Biquad.resetValue ∧ t.dsp.sat = Saturation.resetValue ∧ t.dsp.wowPtr = 0)
    (after .cmdPrepare (withConfig 0x40E7700000000000#64 4#32 1#32 State.reset)) := by decide +kernel

theorem test_process : statusWord (after .cmdProcess { ready with numSamp := 512#32 }) = 0x00000003#32 ∧
    statusWord (after .cmdProcess ready) = 0x00000003#32 ∧
    statusWord (after .cmdProcess { ready with numSamp := 513#32 }) = 0x00000509#32 ∧
    statusWord (after .cmdProcess { ready with numSamp := 0xFFFFFFFF#32 }) = 0x00000509#32 ∧
    statusWord (after .cmdProcess State.reset) = 0x00000408#32 := by decide

theorem test_release : statusWord (after .cmdRelease ready) = 0x00000000#32 ∧
    statusWord (after .cmdRelease (after .cmdRelease ready)) = 0x00000000#32 := by decide

theorem test_illegalCmd : statusWord (after (.illegalCmd 4#32) State.reset) = 0x00000608#32 ∧
    statusWord (after (.illegalCmd 4#32) ready) = 0x00000609#32 := by decide

/-- R237, R238: accumulation. -/
theorem test_error_accumulation :
    statusWord (after .cmdPrepare (after .cmdProcess State.reset)) = 0x0000010C#32 ∧
    statusWord (after .cmdProcess (after .cmdPrepare State.reset)) = 0x0000040C#32 := by decide +kernel

theorem test_registers : (fun t : State => [readA .rdFsLo t, readA .rdFsHi t, readA .rdMaxBlk t, readA .rdNch t,
        readA .rdNumSamp t])
      (after (.wrNumSamp 512#32) (after (.wrNch 2#32) (after (.wrMaxBlk 0x200#32) (after (.wrFsHi 0x40E77000#32)
        (after (.wrFsLo 0#32) State.reset))))) =
    [0x00000000#32, 0x40E77000#32, 0x00000200#32, 0x00000002#32, 0x00000200#32] := by decide

theorem test_blocks : (fun t : State => [readA (.rdBlk0 8191#13) t, readA (.rdBlk1 8191#13) t, readA (.rdBlk1 0#13) t])
      (after (.wrBlk1 0#13 0xBE800000#32) (after (.wrBlk0 8191#13 0x3F800000#32) ready)) =
    [0x3F800000#32, 0x00000000#32, 0xBE800000#32] := by decide

/-- R58, R190: a port A operation has no effect inside a block; a port C operation has. -/
theorem test_held : after .cmdRelease (busyAt .start 4 0 false) = busyAt .start 4 0 false ∧
    (after (.setBypass 0x3F800000#32) (busyAt .start 4 0 false)).holder[7] = 0x3F800000#32 := by decide

/-! ### Smoothers (2.2, S7) -/

/-- The wow smoother's coefficient at 48 kHz, from the reference's `exp`, which the bracket contains. -/
theorem test_smoothCoef :
    smoothCoefValue { hardwareNum with exp := fun _ => 0x3FEFFC965E6231CD#64 } 0x40E7700000000000#64 0 =
      0x3F3B4D0CEE719800#64 ∧
    Within (expBracket true (F64.units (fdiv one (fmul Config.tWow 0x40E7700000000000#64)))) 0x3FEFFC965E6231CD := by
  unfold Within; decide +kernel

/-- `S[5].cur` one frame after SETPARAM.DRIVE 0.5. -/
theorem test_smoothTick :
    ((after (.smoothTick 5) (after (.setDrive 0x3F000000#32)
      (ready.setSmoother 5 ⟨posZero, 0x3F46BF6664B77000#64⟩))).dsp.smooth[5]).cur = 0x3F36BF6664B77000#64 := by
  decide +kernel

theorem test_smoothSnap : ((after (.smoothSnap 2) ready).dsp.smooth[2]).cur = 0x3FE69FBE80000000#64 := by decide +kernel

/-! ### Filters (2.3, S3) -/

theorem test_bqClamp : ([
    (0x40DF400000000000#64, 0x40D3880000000000#64, 0x3FE69FBE80000000#64, 0x40CEA00000000000#64, 0x3FE69FBE80000000#64),
    (0x408F400000000000#64, 0x40D3880000000000#64, 0x3FE69FBE80000000#64, 0x407EA00000000000#64, 0x3FE69FBE80000000#64),
    (0x40E7700000000000#64, 0x40DD4C0000000000#64, 0x3FE6666666666666#64, 0x40D6F80000000000#64, 0x3FE6666666666666#64),
    (0x40E7700000000000#64, 0x0000000000000000#64, 0x3FE6666666666666#64, 0x3FF0000000000000#64, 0x3FE6666666666666#64),
    (0x40E7700000000000#64, 0x4059000000000000#64, 0x0000000000000000#64, 0x4059000000000000#64, 0x3FB999999999999A#64),
    (0x40E7700000000000#64, 0x4059000000000000#64, 0x4022000000000000#64, 0x4059000000000000#64, 0x4000000000000000#64),
    (0x40E7700000000000#64, 0x4034000000000000#64, 0x3FE69FBE80000000#64, 0x4034000000000000#64,
        0x3FE69FBE80000000#64) ] : List (F64 × F64 × F64 × F64 × F64)).all (fun r =>
      decide ((after (.bqClamp r.2.1 r.2.2.1) (atRate r.1 ready)).wire = .pair r.2.2.2.1 r.2.2.2.2)) = true := by
  decide +kernel

/-- A quarter of the sample rate: the cosine 0 and the sine 1 (mathematics). -/
def quarter : Config.Numerics := { hardwareNum with cos := fun _ => posZero, sin := fun _ => one }

/-- By hand from R104 and R105 with `Q = 2`: `alpha = 0.25`. -/
theorem test_bqCoef :
    coefLp quarter 0x40E7700000000000#64 0x40C7700000000000#64 two =
      ⟨0x3FE0000000000000#64, one, 0x3FE0000000000000#64, 0x3FF4000000000000#64, negZero, 0x3FE8000000000000#64⟩ ∧
    coefHp quarter 0x40E7700000000000#64 0x40C7700000000000#64 two =
      ⟨0x3FE0000000000000#64, negOne, 0x3FE0000000000000#64, 0x3FF4000000000000#64, negZero,
          0x3FE8000000000000#64⟩ := by
  decide +kernel

theorem test_bqNorm : (after (.bqNorm ⟨one, two, negOne, two, forty, posZero⟩) ready).wire =
    .coefs ⟨0x3FE0000000000000#64, one, 0xBFE0000000000000#64, 0x4034000000000000#64, posZero⟩ := by decide +kernel

theorem test_bqCheck : ((after (.bqCheck .hsf ⟨one, two, one, two,
    0x7FF0000000000000#64⟩) ready).dsp.hsf).k = unityPass ∧
    ((after (.bqCheck .lcf ⟨two, two, one, two, one⟩) ready).dsp.lcf).k = ⟨two, two, one, two, one⟩ := by decide +kernel

/-- S3's set: the first two outputs for an impulse. -/
theorem test_bqStep_impulse :
    (fun t : State => t.wire = .real 0x3F8E996D7AE20F1C#64 ∧
      t.dsp.hcf.h.c1 = ⟨posZero, one, 0x3F8E996D7AE20F1C#64, 0x3F700A4DD48FD731#64⟩)
    (after (.bqStep .hcf .c1 posZero) (after (.bqStep .hcf .c1 one) (ready.setCoefs .hcf
      ⟨0x3F700A4DD48FD731#64, 0x3F800A4DD48FD731#64, 0x3F700A4DD48FD731#64, 0xBFFD0B8ACC7A9E43#64,
        0x3FEA97680799BB40#64⟩))) := by decide +kernel

/-- The unity-pass set, and an overflow that is sanitised. -/
theorem test_bqStep_corners :
    (after (.bqStep .lsf .c0 0x3FD3333333333333#64) ready).dsp.lsf.h.c0 =
      ⟨0x3FD3333333333333#64, posZero, 0x3FD3333333333333#64, posZero⟩ ∧
    (after (.bqStep .lsf .c0 0x6974E718D7D7625A#64)
      (ready.setCoefs .lsf ⟨0x6974E718D7D7625A#64, posZero, posZero, posZero, posZero⟩)).wire = .real posZero := by
  decide +kernel

theorem test_bqReset : (after (.bqReset .lcf) State.reset).dsp.lcf = Biquad.resetValue ∧
    Biquad.resetValue.k.b0 = one := by decide

/-! ### Saturation (2.4) -/

theorem test_satGain : [posZero, 0x3FD0000000000000#64, 0x3FE0000000000000#64, 0x3FF0000000000000#64,
    0xBC670EF54646D497#64, 0x3FF0000000000001#64].map satGain =
    [one, 0x400A000000000000#64, 0x4016000000000000#64, 0x4024000000000000#64, 0x3FF0000000000000#64,
        0x4024000000000000#64] := by decide +kernel

theorem test_satCorner : [posZero, 0x3FD0000000000000#64, 0x3FE0000000000000#64,
    0x3FF0000000000000#64].map (satCorner 0x40E7700000000000#64) =
    [0x40D3880000000000#64, 0x40CFBD0000000000#64, 0x40C86A0000000000#64, 0x40B3880000000000#64] ∧
    satCorner thousand posZero = 0x407EA00000000000#64 := by decide +kernel

/-- Full scale at drive 0: `tanh(1)/tanh(1) = 1`, times `alp`. -/
theorem test_satStep : (fun s : State => satOut { hardwareNum with tanh := fun _ => 0x3FE85EFAB514F394#64 } .c0 one s =
      0x3FEDAA66BB2C1A01#64)
    (ready.setSat ⟨one, 0x3FE85EFAB514F394#64, 0x3FEDAA66BB2C1A01#64, ⟨posZero, posZero⟩⟩) := by decide +kernel

theorem test_satReset : (after .satReset State.reset).dsp.sat = ⟨one, one, one, ⟨posZero, posZero⟩⟩ := by decide

/-! ### Tone (2.5, S2) -/

theorem test_toneGain : toneGainDb 0x3FD3333340000000#64 = 0x3FFCCCCCE0000000#64 ∧ toneGainDb two = Config.toneDbSpan ∧
    fneg (toneGainDb posZero) = negZero := by decide +kernel

/-- By hand from R139 and R140: `A = 2`, `cw = 0.5`, `beta = 0.25`, `ap1 = 3`, `am1 = 1`, `m = 2.5`, `p = 3.5`. -/
theorem test_shelfRaw : (fun e : ShelfPre =>
      lowShelfRaw e = ⟨0x4016000000000000#64, 0xC000000000000000#64, 0x4012000000000000#64, 0x400E000000000000#64,
          0xC014000000000000#64, 0x400A000000000000#64⟩ ∧
      highShelfRaw e = ⟨0x401E000000000000#64, 0xC024000000000000#64, 0x401A000000000000#64, 0x4006000000000000#64,
          0xBFF0000000000000#64, 0x4002000000000000#64⟩)
    ⟨thousand, two, one, 0x3FE0000000000000#64, one, one, 0x3FD0000000000000#64, 0x4008000000000000#64,
        0x3FF0000000000000#64, 0x4004000000000000#64, 0x400C000000000000#64⟩ := by
  decide +kernel

/-- The corner clamp at 1 kHz, and by hand `A = 1`, `cw = 0`: `ap1 = m = p = 2`, `am1 = 0`. -/
theorem test_shelfPre : (fun e : ShelfPre => e.f = 0x407EA00000000000#64 ∧ e.A = one ∧ e.ap1 = two ∧
    e.am1 = posZero ∧ e.m = two ∧ e.p = two)
    (shelfPre { quarter with pow10 := fun _ => one } thousand Config.highShelfHz posZero) := by decide +kernel

/-! ### Wow (2.6) -/

theorem test_wowInit : ([
    (0x3FF0000000000000#64, 2, 0x400921FB54442D18#64),
    (0x408F400000000000#64, 51, 0x3F69BC65B68B71C3#64),
    (0x40BF400000000000#64, 401, 0x3F39BC65B68B71C3#64),
    (0x40C5888000000000#64, 553, 0x3F32ACB24B91E1EE#64),
    (0x40D5888000000000#64, 1104, 0x3F22ACB24B91E1EE#64),
    (0x40E5888000000000#64, 2206, 0x3F12ACB24B91E1EE#64),
    (0x40E7700000000000#64, 2401, 0x3F112843CF07A12C#64),
    (0x40F5888000000000#64, 4411, 0x3F02ACB24B91E1EE#64),
    (0x40F7700000000000#64, 4801, 0x3F012843CF07A12C#64),
    (0x4105888000000000#64, 8821, 0x3EF2ACB24B91E1EE#64),
    (0x4107700000000000#64, 9601,
        0x3EF12843CF07A12C#64) ] : List (F64 × Nat × F64)).all (fun r => decide ((after .wowInit
            (atRate r.1 ready)).dsp.len = r.2.1 ∧
      (after .wowInit (atRate r.1 ready)).dsp.phaseInc = r.2.2)) = true := by decide +kernel

theorem test_wowLfo : (after .wowLfo ready).wire = .real posZero ∧
    (after .wowLfo (after .wowLfo (after .wowLfo (after .wowLfo ready)))).dsp.wowPhase = 0x3F312843CF07A12C#64 := by
  decide +kernel

/-- R154: the wrap, just below and at `2π`. -/
theorem test_nextPhase : nextPhase 0x401921FB54442D17#64 posZero = 0x401921FB54442D17#64 ∧
    nextPhase Config.twoPi posZero = posZero ∧ nextPhase Config.pi Config.pi = posZero := by decide +kernel

theorem test_wowDelay : ([
    (0x40E7700000000000#64, 2401, 0x0000000000000000#64, 0x0000000000000000#64, 240, 0x0000000000000000#64),
    (0x40E7700000000000#64, 2401, 0x3FF0000000000000#64, 0x3FF0000000000000#64, 2400, 0x0000000000000000#64),
    (0x40E7700000000000#64, 2401, 0x3FF0000000000000#64, 0xBFF0000000000000#64, 1, 0x0000000000000000#64),
    (0x40E7700000000000#64, 2401, 0x3FF0000000000000#64, 0xBFBC71C71C71C71C#64, 1, 0x0000000000000000#64),
    (0x40E7700000000000#64, 2401, 0x3FF0000000000000#64, 0xBFB999999999999A#64, 24, 0x0000000000000000#64),
    (0x40E7700000000000#64, 2401, 0x3FF0000000000000#64, 0x3FD0000000000000#64, 780, 0x0000000000000000#64),
    (0x40E7700000000000#64, 2401, 0x3FF0000000000000#64, 0x3FAEB851EB851EB8#64, 369, 0x3FE3333333333200#64),
    (0x40E5888000000000#64, 2206, 0x3FE6666666666666#64, 0x0000000000000000#64, 220, 0x3FE0000000000000#64),
    (0x40E5888000000000#64, 2206, 0x3FE0000000000000#64, 0x3FE0000000000000#64, 716, 0x3FE4000000000000#64),
    (0x40BF400000000000#64, 401, 0x3FE0000000000000#64, 0xBFF0000000000000#64, 1, 0x0000000000000000#64),
    (0x4107700000000000#64, 9601, 0x3FF0000000000000#64, 0x3FF0000000000000#64, 9600, 0x0000000000000000#64),
    (0x3FF0000000000000#64, 2, 0x3FF0000000000000#64, 0x3FF0000000000000#64, 1,
        0x0000000000000000#64) ] : List (F64 × Nat × F64 × F64 × Nat × F64)).all (fun r =>
      decide (splitDelay (delaySamples r.1 r.2.1 (delayMs r.2.2.1 r.2.2.2.1)) = (r.2.2.2.2.1,
          r.2.2.2.2.2))) = true := by
  decide +kernel

/-- The small line of 2.6, `L = 11`: (wp, i, p0, p1). -/
theorem test_tapIndex : ([(0, 1, 10, 9), (1, 1, 0, 10), (2, 1, 1, 0), (10, 1, 9, 8), (1, 10, 2, 1), (2, 10, 3, 2)] :
      List (Nat × Nat × Nat × Nat)).all (fun r =>
        decide (tapIndex r.1 11 r.2.1 = r.2.2.1 ∧ tapIndex r.1 11 (r.2.1 + 1) = r.2.2.2)) = true := by decide

/-- Frame 2 of the small line. -/
theorem test_wowRead : (after (.wowRead .c0 1 0x3FE0000000000000#64)
      { ready with dl := ⟨[(0, 0x3FB999999999999A#64), (1, 0x3FC999999999999A#64)], []⟩,
                   dsp := { ready.dsp with len := 11, wowPtr := 2 } }).wire = .real 0x3FC3333333333334#64 := by
  decide +kernel

/-- Frame 12 of the small line: the read comes before the write at the same index. -/
theorem test_wowStep : (fun t : State => t.wire = .real 0x3FD3333333333334#64 ∧ t.readDl .c0 1 = 0x3FF4CCCCCCCCCCCD#64)
    (after (.wowStep .c0 0x3FF4CCCCCCCCCCCD#64 10 posZero)
      { ready with dl := ⟨[(1, 0x3FC999999999999A#64), (2, 0x3FD3333333333334#64)], []⟩,
                   dsp := { ready.dsp with len := 11, wowPtr := 1 } }) := by decide +kernel

theorem test_wowWrite : (after (.wowWrite .c1 one) ready).dl = ⟨[], [(0, one)]⟩ := by decide

theorem test_wowAdvance : (after .wowAdvance { ready with dsp := { ready.dsp with wowPtr := 2400 } }).dsp.wowPtr = 0 ∧
    (after .wowAdvance ready).dsp.wowPtr = 1 := by decide

/-! ### The chain (2.7) -/

theorem test_inCond : ([
    (0x3F800000#32, 0x3FF0000000000000#64),
    (0x3F000000#32, 0x3FE0000000000000#64),
    (0x7F800000#32, 0x0000000000000000#64),
    (0xFF800000#32, 0x0000000000000000#64),
    (0x80000000#32, 0x0000000000000000#64),
    (0x00000001#32, 0x0000000000000000#64),
    (0x26901D7C#32, 0x0000000000000000#64),
    (0x26901D7D#32, 0x3CD203AFA0000000#64),
    (0xA6901D7D#32, 0xBCD203AFA0000000#64),
    (0x7F7FFFFF#32, 0x47EFFFFFE0000000#64) ] :
      List (Word × F64)).all (fun r => decide ((after (.inCond r.1) ready).wire = .real r.2)) = true := by
  decide +kernel

theorem test_inCond_nan : inCond 0x7FC00000#32 = posZero ∧ inCond 0x7FA00000#32 = posZero := by
  have h : ∀ w : Word, isNaN32 w = true → inCond w = posZero := by
    intro w hw
    rw [inCond, widen32, if_pos hw, cond_nan (isNaN_nanF64 _ _ _)]
  exact ⟨h _ (by decide), h _ (by decide)⟩

theorem test_outCond : ([
    (0x3FE20019F8D74294#64, 0x3F1000D0#32),
    (0x3FF0000000000001#64, 0x3F800000#32),
    (0x0000000000000000#64, 0x00000000#32),
    (0x3CD203AF9EE75616#64, 0x26901D7D#32),
    (0x47EFFFFFEFFFFFFF#64, 0x7F7FFFFF#32),
    (0x47EFFFFFF0000000#64, 0x00000000#32),
    (0x48078287F49C4A1D#64, 0x00000000#32),
    (0xC8078287F49C4A1D#64, 0x00000000#32) ] : List (F64 × Word)).all (fun r => decide ((after
        (.outCond r.1) ready).wire = .word r.2)) = true := by
  decide +kernel

/-- R171, R172, R174: where each step leads. -/
theorem test_blockStart : (after .blockStart (busyAt .start 0 0 false)).ctx.phase = .finish ∧
    (after .blockStart (busyAt .start 4 0 false)).ctx = ⟨4, 0, .frames, false⟩ ∧
    after .blockStart (bypassed (busyAt .start 4 0 false)) = bypassed (busyAt .finish 4 0 true) := by decide +kernel

/-- A frame of zeros at 48 kHz. -/
theorem test_frame : (fun t : State => t.ctx = ⟨4, 1, .frames, false⟩ ∧ t.dsp.wowPtr = 1 ∧
      t.dsp.wowPhase = 0x3F112843CF07A12C#64) (after .frame (busyAt .frames 4 0 false)) ∧
    (after .frame (busyAt .frames 4 3 false)).ctx = ⟨4, 4, .finish, false⟩ := by decide +kernel

theorem test_blockEnd : statusWord (after .blockEnd (busyAt .finish 4 4 false)) = 0x00000001#32 := by decide

/-! ### Witnesses: for every statement with hypotheses, values that meet them together, clause by clause -/

theorem witness_DecodeOfEncode : Instr.wellFormed (.setDrive 0x3E800000#32) = true ∧
    encode (.setDrive 0x3E800000#32) = some 0x300153E800000#50 ∧
    Instr.wellFormed (.illegalCmd 0xFFFFFFFF#32) = true ∧
    encode (.illegalCmd 0xFFFFFFFF#32) = some 0x10000FFFFFFFF#50 := by decide

theorem witness_EncodeOfDecode : decode 0x15FFF3F800000#50 = .op (.wrBlk0 8191#13 0x3F800000#32) ∧
    TWord.isWrite 0x15FFF3F800000#50 = true ∧ decode 0x0000112345678#50 = .op .rdStatus := by decide

theorem witness_NoTransactionSelectsAnInternalOperation : decode 0x0000600000000#50 = .op .rdNumSamp ∧
    TWord.isPortC 0x0000600000000#50 = false ∧ decode 0x2001700000000#50 = .op (.getParam 7#3) ∧
    TWord.isPortC 0x2001700000000#50 = true := by decide

/-- Bits 48..0 of the transaction words of RD.FS_LO, RD.STATUS and GETPARAM #7. -/
def accessFsLo : Access := 0x0000200000000#49
def accessStatus : Access := 0x0000100000000#49
def accessGet : Access := 0x0001700000000#49

theorem witness_StepRunsTheDecodedInstruction :
    decode (0#1 ++ accessFsLo) = .op .rdFsLo ∧ ready.lc ≠ .busy ∧ decode (0#1 ++ accessStatus) = .op .rdStatus ∧
    (busyAt .start 4 0 false).lc = .busy ∧ decode (1#1 ++ accessGet) = .op (.getParam 7#3) ∧
    (busyAt .start 4 0 false).ctx.phase = .start ∧ (busyAt .frames 4 0 false).ctx.phase = .frames ∧
    (busyAt .finish 4 4 false).ctx.phase = .finish ∧
    ({ ready with schedule := [.audioHost], portA := [accessFsLo] } : State).schedule = .audioHost :: [] := by decide

theorem witness_PlacedTransactionIsRunNext :
    decodeTableWord 56 0x1000340E77000 = some (.wrFsHi 0x40E77000#32) ∧ ready.lc ≠ .busy ∧
    decodeTableWord 56 0x0000100000000 = some .rdStatus ∧
    decodeTableWord 56 0x300173F800000 = some (.setBypass 0x3F800000#32) ∧
    Instr.port (.setBypass 0x3F800000#32) = some .c := by decide

theorem witness_PortAHoldsWhileBusy : (busyAt .frames 4 0 false).lc = .busy ∧
    decode (0#1 ++ accessFsLo) ≠ .op .rdStatus ∧
        decode (0#1 ++ (0x0600000000000#49 : Access)) ≠ .op .rdStatus := by decide

theorem witness_ReservedAccessesDoNothing : ready.lc ≠ .busy ∧
    decode (0#1 ++ (0x1000700000000#49 : Access)) = .reservedWrite .a ∧
    decode (0#1 ++ (0x0000000000000#49 : Access)) = .reservedRead .a ∧
    decode (1#1 ++ (0x1001800000000#49 : Access)) = .reservedWrite .c ∧
    decode (1#1 ++ (0x0000F00000000#49 : Access)) = .reservedRead .c := by decide

theorem witness_HardwareResetAtAnyTime :
    ({ busyAt .frames 4 2 false with schedule := [.resetInput] } : State).schedule = .resetInput :: [] := by decide

theorem witness_ConfigurationWrites_Reads_BlockWrites : ready.lc ≠ .busy ∧ memoriesOk ready = true ∧
    memoriesOk { ready with blk := ⟨[(8191, one.setWidth 32 ||| 1#32)], []⟩ } = true := by decide +kernel

theorem witness_SetParamClampsAndStores :
    ((1 : Fin 8), Instr.setLowCutFreq, 0x41A00000#32, 0x43480000#32) ∈
        [((0 : Fin 8), Instr.setWowDepth, 0x00000000#32, 0x3F800000#32),
         (1, Instr.setLowCutFreq, 0x41A00000#32, 0x43480000#32),
         (2, Instr.setLowCutQ, 0x3DCCCCCD#32, 0x40000000#32),
         (3, Instr.setHighCutFreq, 0x459C4000#32, 0x469C4000#32),
         (4, Instr.setHighCutQ, 0x3DCCCCCD#32, 0x40000000#32),
         (5, Instr.setDrive, 0x00000000#32, 0x3F800000#32),
         (6, Instr.setTone, 0xBF800000#32, 0x3F800000#32)] :=
  List.mem_cons_of_mem _ List.mem_cons_self

theorem witness_SetParamKeepsHoldersLegalAndIsIdempotent : holdersLegal State.reset = true ∧
    holdersLegal (bypassed ready) = true := by decide

/-- The least and the greatest legal arguments. -/
theorem witness_PrepareAcceptsLegalArguments :
    ([withConfig 0x3FF0000000000000#64 0#32 1#32 State.reset, withConfig 0x4107700000000000#64 8192#32 2#32 ready] :
      List State).all (fun s => decide (s.lc ≠ .busy ∧
        fge (s.cfgFsHi ++ s.cfgFsLo) 0x3FF0000000000000#64 = true ∧
        fle (s.cfgFsHi ++ s.cfgFsLo) 0x4107700000000000#64 = true ∧ 0 ≤ s.cfgMaxBlk.toInt ∧
        s.cfgMaxBlk.toInt ≤ 8192 ∧ (s.cfgNch.toInt = 1 ∨ s.cfgNch.toInt = 2))) = true := by decide

/-- The three rejections, each just beyond a bound. -/
theorem witness_PrepareRejectsInOrder :
    fle (0x4107700000000001#64 : F64) 0x4107700000000000#64 = false ∧
    fge (0x3FEFFFFFFFFFFFFF#64 : F64) 0x3FF0000000000000#64 = false ∧
    (withConfig 0x3FF0000000000000#64 8193#32 2#32 ready).cfgMaxBlk.toInt = 8193 ∧
    (withConfig 0x3FF0000000000000#64 0xFFFFFFFF#32 2#32 ready).cfgMaxBlk.toInt = -1 ∧
    (withConfig 0x3FF0000000000000#64 8192#32 3#32 ready).cfgNch.toInt = 3 ∧ ready.lc ≠ .busy := by decide

theorem witness_ProcessBeginsABlockOrIsRejected : State.reset.lc = .unprepared ∧ ready.lc = .idle ∧
    ready.dsp.maxBlk = 512 ∧ (0xFFFFFFFF#32).toInt < 0 ∧ (512 : Int) < (513#32).toInt ∧ 0 ≤ (0#32).toInt ∧
    (512#32).toInt ≤ 512 := by decide

theorem witness_ReleaseClearsTheStream : State.reset.lc = .unprepared ∧ ready.lc = .idle := by decide

theorem witness_IllegalCommandRecordsCodeSix : 0#32 ≠ 1#32 ∧ 0#32 ≠ 2#32 ∧ 0#32 ≠ 3#32 ∧ 4#32 ≠ 1#32 ∧
    4#32 ≠ 2#32 ∧ 4#32 ≠ 3#32 ∧ State.reset.lc ≠ .busy := by decide

/-- A core with both sticky bits and code 6. -/
def recorded : State := { ready with cfgErr := true, seqErr := true, errCode := 6#4 }

theorem witness_NothingElseClearsTheRecord :
    exec .rdFsLo recorded = .next (after .rdFsLo recorded) ∧
    exec .cmdPrepare recorded = .next (after .cmdPrepare recorded) ∧ (after .cmdPrepare recorded).lc ≠ .idle ∧
    recorded.cfgErr = true ∧ recorded.seqErr = true ∧ recorded.errCode ≠ 0#4 :=
  ⟨rfl, rfl, by decide +kernel⟩

/-- All five transitions. -/
theorem witness_LifecycleChangesOnlyByTheseTransitions :
    (exec .cmdPrepare (withConfig thousand 1#32 1#32 State.reset) =
        .next (after .cmdPrepare (withConfig thousand 1#32 1#32 State.reset)) ∧
      (after .cmdPrepare (withConfig thousand 1#32 1#32 State.reset)).lc = .idle) ∧
    (exec .cmdPrepare ready = .next (after .cmdPrepare ready) ∧ (after .cmdPrepare ready).lc = .unprepared) ∧
    (exec .cmdRelease ready = .next (after .cmdRelease ready) ∧ (after .cmdRelease ready).lc = .unprepared) ∧
    (exec .cmdProcess ready = .next (after .cmdProcess ready) ∧ (after .cmdProcess ready).lc = .busy) ∧
    (exec .blockEnd (busyAt .finish 4 4 false) = .next (after .blockEnd (busyAt .finish 4 4 false)) ∧
      (after .blockEnd (busyAt .finish 4 4 false)).lc = .idle) :=
  ⟨⟨rfl, by decide +kernel⟩, ⟨rfl, by decide +kernel⟩, ⟨rfl, by decide⟩, ⟨rfl, by decide⟩, ⟨rfl, by decide⟩⟩

theorem witness_EveryElementHasItsWriters :
    (exec (.setDrive 0x3F000000#32) ready = .next (after (.setDrive 0x3F000000#32) ready) ∧
      Instr.port (.setDrive 0x3F000000#32) = some .c) ∧
    (exec .rdFsLo ready = .next (after .rdFsLo ready) ∧ Instr.port .rdFsLo = some .a) ∧
    (exec (.wrBlk0 0#13 1#32) ready = .next (after (.wrBlk0 0#13 1#32) ready) ∧
      (after (.wrBlk0 0#13 1#32) ready).blk ≠ ready.blk) :=
  ⟨⟨rfl, rfl⟩, ⟨rfl, rfl⟩, ⟨rfl, by decide⟩⟩

theorem witness_BypassedBlock : (bypassed (busyAt .start 4 0 false)).lc = .busy ∧
    (bypassed (busyAt .start 4 0 false)).ctx.phase = .start ∧
    (bypassed (busyAt .start 4 0 false)).holder[(7 : Fin 8)] = 0x3F800000#32 ∧
    (bypassed (busyAt .start 4 0 false)).schedule = [] := by decide

theorem witness_BlockStartComputesEveryCoefficient : (busyAt .start 4 0 false).lc = .busy ∧
    (busyAt .start 4 0 false).ctx.phase = .start ∧
    (busyAt .start 4 0 false).holder[(7 : Fin 8)] ≠ 0x3F800000#32 := by decide

theorem witness_FrameRunsTheChainOnce : memoriesOk (busyAt .frames 4 3 false) = true ∧
    (busyAt .frames 4 3 false).lc = .busy ∧ (busyAt .frames 4 3 false).ctx.phase = .frames ∧
    (busyAt .frames 4 3 false).dsp.nch = 2 := by decide

theorem witness_BlockEndMakesTheCoreIdle : (busyAt .finish 4 4 false).lc = .busy ∧
    (busyAt .finish 4 4 false).ctx.phase = .finish := by decide

/-- The longest block of the prepared core, and the empty one. -/
theorem witness_UndisturbedUnbypassedBlockCompletes :
    (MachineInvariant (busyAt .start 512 0 false) ∧ MachineInvariant (busyAt .start 0 0 false)) ∧
    (busyAt .start 512 0 false).lc = .busy ∧ (busyAt .start 512 0 false).ctx.phase = .start ∧
    (busyAt .start 512 0 false).schedule = [] ∧
    (busyAt .start 512 0 false).holder[(7 : Fin 8)] ≠ 0x3F800000#32 := by
  refine ⟨⟨⟨by decide, by decide, by decide, fun _ => by decide +kernel, fun _ => by decide +kernel,
      fun _ => by decide⟩,
    ⟨by decide, by decide, by decide, fun _ => by decide +kernel, fun _ => by decide +kernel, fun _ => by decide⟩⟩,
    by decide⟩

/-- The other channel differs. -/
theorem witness_ChannelsDoNotInteract :
    (fun s' : State => s'.lc = .busy ∧ (busyAt .frames 4 0 false).ctx.phase = .frames ∧
      (busyAt .frames 4 0 false).shared = s'.shared ∧ (busyAt .frames 4 0 false).channel .c0 = s'.channel .c0 ∧
      (busyAt .frames 4 0 false).channel .c1 ≠ s'.channel .c1)
    { busyAt .frames 4 0 false with blk := ⟨[], [(0, 0x3F800000#32)]⟩ } := by decide

theorem witness_IdenticalChannelsStayIdentical :
    (fun s : State => s.lc = .busy ∧ s.ctx.phase = .frames ∧ s.dsp.nch = 2 ∧ s.channel .c0 = s.channel .c1)
    { busyAt .frames 4 0 false with blk := ⟨[(0, 0x3F800000#32)], [(0, 0x3F800000#32)]⟩ } := by decide

/-- A subnormal and a NaN pattern as the silent sample, in either channel. -/
theorem witness_SilenceStaysSilent :
    (fun s : State => memoriesOk s = true ∧ s.lc = .busy ∧ s.ctx.phase = .frames ∧ s.dsp.wowPtr < s.dsp.len ∧
      Chan.c0 ∈ channels s.dsp.nch ∧ Chan.c1 ∈ channels s.dsp.nch ∧ silentChannel .c0 s = true ∧
      silentChannel .c1 s = true ∧ inCond (s.readBlk .c0 0) = posZero ∧ inCond (s.readBlk .c1 0) = posZero)
    { busyAt .frames 4 0 false with blk := ⟨[(0, 0x00000001#32)], [(0, 0xFF800000#32)]⟩ } := by decide +kernel

theorem witness_SmootherAtItsTargetStays :
    (fun s : State => widen32 s.holder[(1 : Fin 7).castSucc] = s.dsp.smooth[(1 : Fin 7)].cur ∧
      finite s.dsp.smooth[(1 : Fin 7)].cur = true ∧ s.dsp.smooth[(1 : Fin 7)].cur ≠ negZero ∧
      finite s.dsp.smooth[(1 : Fin 7)].coeff = true ∧ F64.neg? s.dsp.smooth[(1 : Fin 7)].coeff = false)
    (ready.setSmoother 1 ⟨0x4034000000000000#64, 0x3F510ECABA069C00#64⟩) := by decide +kernel

/-- The least and the greatest legal sample rate: SmootherCoefficientIsAFraction, ClampedFrequencyIsUsable,
DelayLineLengthIsInRange. -/
theorem witness_legalFs : legalFs 0x3FF0000000000000#64 = true ∧ legalFs 0x4107700000000000#64 = true ∧
    legalFs (atRate 0x4107700000000000#64 ready).dsp.fs = true ∧ legalFs ready.dsp.fs = true := by decide

theorem witness_CheckStoresTheSetOrUnityPass : (finite one = true ∧ finite negZero = true) ∧
    finite 0x7FF0000000000000#64 = false ∧ finite 0x7FEFFFFFFFFFFFFF#64 = true := by decide

theorem witness_SaturationGainIsFromOneToTen : isNaN negTwo = false ∧ isNaN 0x7FF0000000000000#64 = false ∧
    isNaN posZero = false ∧ isNaN one = false := by decide

/-- The phase at its least value and just below `2π`. -/
theorem witness_PhaseStaysInRange :
    ([ready, { ready with dsp := { ready.dsp with wowPhase := 0x401921FB54442D17#64 } }] : List State).all (fun s =>
      decide (legalFs s.dsp.fs = true ∧ s.dsp.phaseInc = phaseIncOf s.dsp.fs ∧ phaseInRange s = true)) = true := by
  decide +kernel

/-- The oscillator's two extreme values. -/
theorem witness_DelayIsInsideTheLine : configLegal ready = true ∧ finite ready.dsp.smooth[(0 : Fin 7)].cur = true ∧
    fge negOne negOne = true ∧ fle negOne one = true ∧ fge one negOne = true ∧ fle one one = true := by decide +kernel

theorem witness_DelayLineOperations : memoriesOk ready = true ∧ 0 < ready.dsp.len := by decide

theorem witness_ConditioningCleansBothEnds : settled Config.flushThreshold = true ∧ settled posZero = true ∧
    settled 0x48078287F49C4A1D#64 = true := by decide +kernel

/-- A core with a port A transaction waiting, and the reset machine. -/
theorem witness_EveryStepKeepsTheInvariant :
    (MachineInvariant { ready with portA := [accessFsLo] } ∧
      step { ready with portA := [accessFsLo] } = .next (after .rdFsLo ready)) ∧
    step State.reset = .next State.reset := by
  refine ⟨⟨⟨by decide, by decide, by decide, fun _ => by decide +kernel, fun _ => by decide +kernel,
    fun h => by simp [ready] at h⟩, rfl⟩, rfl⟩

end Sys2Proof.Tests
end

/-! PROOFS. Family 00_scope.md: the reset values of R42 and the range R14 gives a smoother's coefficient. -/
namespace Sys2Proof.Machine

/-! ### Reset (00_scope.md R6, 10_state.md R42) -/

/-- Settles O12: each stated value is the one `State.reset` is built from. -/
theorem resetLeavesTheStatedValues : Obligations.ResetLeavesTheStatedValues := by
  have hstatus : statusWord State.reset = 0x00000000#32 := by decide
  exact ⟨rfl, hstatus, rfl, rfl, rfl, rfl, rfl, rfl⟩

/-! ### A number from 0 to 1 -/

/-- A number that is not negative and at most 1: never a NaN, never `-0.0`. -/
def IsFraction (x : F64) : Prop := F64.neg? x = false ∧ F64.mag x ≤ oneMag

theorem finite_of_mag_le_oneMag {x : F64} (h : F64.mag x ≤ oneMag) : finite x = true := by
  rw [finite_iff]
  exact Nat.lt_of_le_of_lt h (by decide)

theorem IsFraction.finite {x : F64} (h : IsFraction x) : Machine.finite x = true := finite_of_mag_le_oneMag h.2

theorem isFraction_posZero : IsFraction posZero := by simp [IsFraction]

theorem isFraction_one : IsFraction one := ⟨by decide, by decide⟩

theorem isFraction_pack {m : Nat} (h : m ≤ oneMag) : IsFraction (packF64 false m) := by
  have hlt : m < 0x8000000000000000 := Nat.lt_of_le_of_lt h (by decide)
  exact ⟨F64.neg?_pack hlt, by rwa [F64.mag_pack hlt]⟩

/-- What `IsFraction` says in the model's own comparisons. -/
theorem IsFraction.bounds {x : F64} (h : IsFraction x) : fge x posZero = true ∧ fle x one = true := by
  obtain ⟨hneg, hmag⟩ := h
  have hnan : isNaN x = false := isNaN_of_finite (finite_of_mag_le_oneMag hmag)
  constructor
  · rw [fge, fle_nonneg F64.neg?_posZero hneg isNaN_posZero hnan, F64.mag_posZero]
    exact Nat.zero_le _
  · rw [fle_nonneg hneg isFraction_one.1 hnan (isNaN_of_finite isFraction_one.finite)]
    exact hmag

/-! ### Unary minus -/

@[simp] theorem F64.mag_fneg (x : F64) : F64.mag (fneg x) = F64.mag x := by
  have hxor : F64.mag (fneg x) = F64.mag x ^^^ 0 := by
    unfold F64.mag fneg
    rw [BitVec.toNat_xor]
    exact Nat.xor_mod_two_pow (n := 63)
  rw [hxor, Nat.xor_zero]

@[simp] theorem F64.neg?_fneg (x : F64) : F64.neg? (fneg x) = !F64.neg? x := by
  unfold F64.neg? fneg
  rw [BitVec.getLsbD_xor, show (0x8000000000000000#64).getLsbD 63 = true by decide, Bool.xor_true]

@[simp] theorem isNaN_fneg (x : F64) : isNaN (fneg x) = isNaN x := by simp [isNaN]

@[simp] theorem isInf_fneg (x : F64) : isInf (fneg x) = isInf x := by simp [isInf]

/-- Negating a number negates its exact value. -/
@[simp] theorem F64.exact_fneg (x : F64) : F64.exact (fneg x) = -F64.exact x := by
  have hunits : F64.units (fneg x) = F64.units x := by simp [F64.units]
  unfold F64.exact
  rw [hunits, F64.neg?_fneg]
  cases F64.neg? x <;> simp

/-! ### One minus a fraction -/

theorem F64.units_one : F64.units one = unitsPerOne := by decide +kernel

theorem nearestMag_unitsPerOne : nearestMag 52 infMag unitsPerOne 1 = oneMag := by decide +kernel

/-- A magnitude of at most 1.0 rounds to at most the pattern of 1.0. -/
theorem nearestMag_le_oneMag {n : Nat} (h : n ≤ unitsPerOne) : nearestMag 52 infMag n 1 ≤ oneMag := by
  rw [← nearestMag_unitsPerOne]
  exact nearestMag_mono Nat.one_pos Nat.one_pos (Nat.mul_le_mul_right _ h)

/-- Rounding keeps `1 - y` between 0 and 1. -/
theorem isFraction_one_fsub {y : F64} (h : IsFraction y) : IsFraction (fsub one y) := by
  obtain ⟨hneg, hmag⟩ := h
  have hfin : finite y = true := finite_of_mag_le_oneMag hmag
  have hunits : F64.units y ≤ unitsPerOne := F64.units_one ▸ F64.units_mono hmag
  have hsub : F64.exact one + F64.exact (fneg y) = ((unitsPerOne - F64.units y : Nat) : Int) := by
    rw [F64.exact_fneg, F64.exact_nonneg hneg, F64.exact_nonneg isFraction_one.1, F64.units_one]
    omega
  unfold fsub fadd
  rw [hsub]
  simp only [isNaN_fneg, isInf_fneg, isNaN_of_finite hfin, isInf_of_finite hfin,
    isNaN_of_finite isFraction_one.finite, isInf_of_finite isFraction_one.finite, isFraction_one.1,
    Bool.or_self, Bool.false_and, Bool.false_eq_true, if_false]
  split
  · exact isFraction_posZero
  · rw [roundUnits_nonneg (Int.natCast_nonneg _), Int.toNat_natCast]
    exact isFraction_pack (nearestMag_le_oneMag (Nat.sub_le _ _))

/-! ### The exponential of a number that is not positive -/

/-- R14(c), for `exp`: of an operand at most 0 it is from 0 to 1, whatever the numerics' free choices. -/
theorem isFraction_numExp_of_neg {x : F64} (hneg : F64.neg? x = true) (hnan : isNaN x = false) :
    IsFraction (numExp x) := by
  unfold numExp
  rw [hnan, hneg]
  simp only [Bool.false_eq_true, if_false, if_true]
  split
  · exact isFraction_one
  · split
    · exact isFraction_posZero
    · exact isFraction_pack (Nat.min_le_left _ _)

/-! ### The smoother coefficient (40_smoother.md R91) -/

/-- What a legal sample rate is, in parts. -/
theorem legalFs_parts {fs : F64} (h : legalFs fs = true) :
    F64.neg? fs = false ∧ finite fs = true ∧ F64.mag one ≤ F64.mag fs ∧ F64.mag fs ≤ F64.mag Config.fsMax := by
  obtain ⟨hlo, hhi⟩ := Bool.and_eq_true_iff.mp h
  obtain ⟨hneg, hnan, hmin⟩ := pos_of_fge (lo := Config.fsMin) (by decide) (by decide) hlo
  have hmax : F64.mag fs ≤ F64.mag Config.fsMax :=
    (fle_nonneg hneg (by decide) hnan (by decide)).mp hhi
  exact ⟨hneg, finite_iff.mpr (Nat.lt_of_le_of_lt hmax (by decide)), hmin, hmax⟩

/-- The time constants are finite and positive, and `T[p] * fs` is so at both ends of the legal rates. -/
theorem timeConstant_facts (p : Fin 7) :
    finite Config.timeConstant[p] = true ∧ F64.neg? Config.timeConstant[p] = false ∧
      F64.mag (fmul Config.timeConstant[p] one) ≠ 0 ∧ finite (fmul Config.timeConstant[p] Config.fsMax) = true := by
  revert p
  decide +kernel

/-- Line 1 of R91: at a legal rate `T[p] * fs` is a positive finite number. -/
theorem timeConstant_mul_fs {fs : F64} (p : Fin 7) (h : legalFs fs = true) :
    finite (fmul Config.timeConstant[p] fs) = true ∧ F64.neg? (fmul Config.timeConstant[p] fs) = false ∧
      F64.mag (fmul Config.timeConstant[p] fs) ≠ 0 := by
  obtain ⟨hneg, hfin, hmin, hmax⟩ := legalFs_parts h
  obtain ⟨tfin, tneg, tlo, thi⟩ := timeConstant_facts p
  have hlow := mag_fmul_le tfin tneg isFraction_one.finite hfin isFraction_one.1 hneg hmin
  have hhigh := mag_fmul_le tfin tneg hfin (y := Config.fsMax) (by decide) hneg (by decide) hmax
  refine ⟨?_, neg?_fmul tfin hfin tneg hneg, by omega⟩
  rw [finite_iff] at thi ⊢
  omega

/-- A quotient of finite numbers is no NaN unless the divisor is zero. -/
theorem isNaN_fdiv_nonneg {x y : F64} (fx : finite x = true) (fy : finite y = true) (hx : F64.neg? x = false)
    (hy : F64.neg? y = false) (h0 : F64.mag y ≠ 0) : isNaN (fdiv x y) = false := by
  rw [fdiv_nonneg fx fy hx hy h0, isNaN, mag_nearest]
  exact decide_eq_false (Nat.not_lt.mpr (nearestMag_le _ _ _ _))

/-- R91 whole: `1 - exp(-(1 / (T[p] * fs)))` is a fraction at a legal rate. -/
theorem isFraction_smoothCoefValue {fs : F64} (p : Fin 7) (h : legalFs fs = true) :
    IsFraction (smoothCoefValue hardwareNum fs p) := by
  obtain ⟨hfin, hneg, hpos⟩ := timeConstant_mul_fs p h
  have qneg := neg?_fdiv isFraction_one.finite hfin isFraction_one.1 hneg hpos
  have qnan := isNaN_fdiv_nonneg isFraction_one.finite hfin isFraction_one.1 hneg hpos
  exact isFraction_one_fsub (isFraction_numExp_of_neg (by rw [F64.neg?_fneg, qneg]; rfl) (by rw [isNaN_fneg, qnan]))

/-- SMOOTH.COEF's next state. -/
theorem exec_smoothCoef (p : Fin 7) (s : State) : exec (.smoothCoef p) s = .next (smoothCoef hardwareNum p s) := rfl

@[simp] theorem smoothCoef_coeff (num : Config.Numerics) (p : Fin 7) (s : State) :
    (smoothCoef num p s).dsp.smooth[p].coeff = smoothCoefValue num s.dsp.fs p := by
  simp [smoothCoef]

/-- Settles O40: `1/(T[p]*fs)` is a number that is not negative, so its negative's exponential is a fraction and so is
one minus that. -/
theorem smootherCoefficientIsAFraction : Obligations.SmootherCoefficientIsAFraction := by
  intro s p hfs
  refine ⟨_, exec_smoothCoef p s, ?_⟩
  rw [smoothCoef_coeff]
  exact (isFraction_smoothCoefValue p hfs).bounds

end Sys2Proof.Machine

/-! PROOFS. Family 10_state.md: what each operation writes of the state, what the reset and the commands leave in it,
and the invariants every step keeps. -/
namespace Sys2Proof.Machine

/-! ### The channels do not interact (10_state.md R41, 45_signal_chain.md R175) -/

/-- Two states agree on everything FRAME shares between the channels and on channel `c`'s own part. -/
def AgreeOn (c : Chan) (s s' : State) : Prop := s.shared = s'.shared ∧ s.channel c = s'.channel c

/-- The wires of a channel depend on the shared part and on the channel's own part alone. -/
theorem wires_congr {c : Chan} {s s' : State} (h : AgreeOn c s s') (num : Config.Numerics) (n i : Nat) (frac : F64) :
    wires num n i frac c s = wires num n i frac c s' := by
  obtain ⟨hshared, hchannel⟩ := h
  simp only [State.shared, SharedView.mk.injEq] at hshared
  simp only [State.channel, ChannelView.mk.injEq] at hchannel
  simp only [wires, State.readBlk, State.readDl, hshared, hchannel]

/-- The delay of a frame depends on the shared part alone. -/
theorem frameDelay_congr {s s' : State} (h : s.shared = s'.shared) (num : Config.Numerics) :
    frameDelay num s = frameDelay num s' := by
  simp only [State.shared, SharedView.mk.injEq] at h
  simp only [frameDelay_eq, h]

/-- A channel's part of a frame leaves what the channels share. -/
theorem shared_frameChannel (num : Config.Numerics) (n i : Nat) (frac : F64) (e : Chan) (s : State) :
    (frameChannel num n i frac e s).shared = s.shared := by
  rw [frameChannel_eq num s n i frac e rfl]
  rfl

/-- A channel's part of a frame leaves the other channel's. -/
theorem channel_frameChannel_ne {c e : Chan} (h : c ≠ e) (num : Config.Numerics) (n i : Nat) (frac : F64) (s : State) :
    (frameChannel num n i frac e s).channel c = s.channel c := by
  rw [frameChannel_eq num s n i frac e rfl]
  simp only [State.channel, Pair.get_set_ne _ _ h]

/-- What channel `c`'s part of a frame makes of channel `c` depends on what it reads. -/
theorem channel_frameChannel_congr {c : Chan} {s s' : State} (h : AgreeOn c s s') (num : Config.Numerics) (n i : Nat)
    (frac : F64) : (frameChannel num n i frac c s).channel c = (frameChannel num n i frac c s').channel c := by
  rw [frameChannel_eq num s n i frac c (wires_congr h num n i frac), frameChannel_eq num s' n i frac c rfl]
  obtain ⟨hshared, hchannel⟩ := h
  simp only [State.shared, SharedView.mk.injEq] at hshared
  simp only [State.channel, ChannelView.mk.injEq] at hchannel
  simp only [State.channel, Pair.get_set, hshared, hchannel]

/-- Either channel's part of a frame keeps the agreement on channel `c`. -/
theorem AgreeOn.frameChannel {c : Chan} {s s' : State} (h : AgreeOn c s s') (num : Config.Numerics) (n i : Nat)
    (frac : F64) (e : Chan) : AgreeOn c (frameChannel num n i frac e s) (frameChannel num n i frac e s') := by
  refine ⟨by rw [shared_frameChannel, shared_frameChannel, h.1], ?_⟩
  by_cases hce : c = e
  · subst hce
    exact channel_frameChannel_congr h num n i frac
  · rw [channel_frameChannel_ne hce, channel_frameChannel_ne hce, h.2]

/-- Lines 6 to 15 of FRAME keep the agreement: both states run the same list of channels. -/
theorem AgreeOn.frameChannels {c : Chan} {s s' : State} (h : AgreeOn c s s') (num : Config.Numerics) (n i : Nat)
    (frac : F64) : AgreeOn c (frameChannels num n i frac s) (frameChannels num n i frac s') := by
  have hnch : s.dsp.nch = s'.dsp.nch := congrArg SharedView.nch h.1
  rw [Machine.frameChannels, Machine.frameChannels, hnch]
  generalize channels s'.dsp.nch = l
  clear hnch
  induction l generalizing s s' with
  | nil => exact h
  | cons e l ih =>
    rw [List.foldl_cons, List.foldl_cons]
    exact ih (h.frameChannel num n i frac e)

/-- Lines 2 to 4 of FRAME leave every channel's part. -/
theorem channel_beginFrame (c : Chan) (s : State) : (beginFrame s).channel c = s.channel c := by
  rw [beginFrame_eq s rfl]
  simp only [State.channel]

/-- Lines 2 to 4 of FRAME keep the agreement: they write shared elements from shared elements. -/
theorem AgreeOn.beginFrame {c : Chan} {s s' : State} (h : AgreeOn c s s') :
    AgreeOn c (beginFrame s) (beginFrame s') := by
  obtain ⟨hshared, hchannel⟩ := h
  have hsmooth : (tickAll s).dsp.smooth = (tickAll s').dsp.smooth := by
    simp only [State.shared, SharedView.mk.injEq] at hshared
    apply Vector.ext
    intro p hp
    have tick := tickAll_smooth s ⟨p, hp⟩
    have tick' := tickAll_smooth s' ⟨p, hp⟩
    simp only [hshared] at tick
    exact tick.trans tick'.symm
  refine ⟨?_, by rw [channel_beginFrame, channel_beginFrame, hchannel]⟩
  rw [beginFrame_eq s hsmooth, beginFrame_eq s' rfl]
  simp only [State.shared, SharedView.mk.injEq] at hshared ⊢
  simp only [hshared, and_self]

/-- Lines 16 to 18 of FRAME: the pointer and the frame count, of shared elements alone. -/
theorem shared_countFrame_wowAdvance (s : State) :
    (countFrame (wowAdvance s)).shared =
      { s.shared with
        ctx := { s.shared.ctx with
          frameIdx := s.shared.ctx.frameIdx + 1
          phase := if s.shared.ctx.frameIdx + 1 = s.shared.ctx.nsamp then .finish else s.shared.ctx.phase }
        ptr := (s.shared.ptr + 1) % s.shared.len } := rfl

/-- Lines 16 to 18 of FRAME keep the agreement. -/
theorem AgreeOn.countFrame_wowAdvance {c : Chan} {s s' : State} (h : AgreeOn c s s') :
    AgreeOn c (countFrame (wowAdvance s)) (countFrame (wowAdvance s')) :=
  ⟨by rw [shared_countFrame_wowAdvance, shared_countFrame_wowAdvance, h.1], h.2⟩

/-- FRAME keeps the agreement. -/
theorem AgreeOn.frame {c : Chan} {s s' : State} (h : AgreeOn c s s') (num : Config.Numerics) :
    AgreeOn c (frame num s) (frame num s') := by
  have hctx : s.ctx = s'.ctx := congrArg SharedView.ctx h.1
  rw [Machine.frame, Machine.frame, frameDelay_congr h.1 num, hctx]
  exact (h.beginFrame.frameChannels num _ _ _).countFrame_wowAdvance

/-- FRAME where it is enabled. -/
theorem exec_frame_enabled {s : State} (hlc : s.lc = .busy) (hphase : s.ctx.phase = .frames) :
    exec .frame s = .next (frame hardwareNum s) := if_pos ⟨hlc, hphase⟩

/-- Settles O35: agreement on the shared part and on one channel is kept by each part of FRAME. -/
theorem channelsDoNotInteract : Obligations.ChannelsDoNotInteract := by
  intro c s s' hlc hlc' hphase hshared hchannel
  have hphase' : s'.ctx.phase = .frames := congrArg (·.ctx.phase) hshared ▸ hphase
  have hframe : AgreeOn c (frame hardwareNum s) (frame hardwareNum s') := AgreeOn.frame ⟨hshared, hchannel⟩ _
  exact ⟨_, _, exec_frame_enabled hlc hphase, exec_frame_enabled hlc' hphase', hframe.1, hframe.2⟩

end Sys2Proof.Machine

/-! PROOFS. What an operation can do to the state, by the port it is issued on: one inversion lemma for port A, one for
port C, one for the operations no transaction selects. -/
namespace Sys2Proof.Machine

/-! ### Footprints of the sequencer's steps -/

/-- BLOCK_START writes the DSP registers and the block context. -/
theorem blockStart_footprint (num : Config.Numerics) (s : State) :
    blockStart num s = { s with ctx := (blockStart num s).ctx, dsp := (blockStart num s).dsp } := by
  unfold blockStart
  rw [recompute_eq]
  split <;> rfl

/-- A channel's part of a frame writes the filters, the saturation stage and the memories. -/
theorem frameChannel_footprint (num : Config.Numerics) (n i : Nat) (frac : F64) (c : Chan) (s : State) :
    ∃ (lcf lsf hsf hcf : Biquad) (sat : Saturation) (blk : Pair (Memory 32)) (dl : Pair (Memory 64)),
      frameChannel num n i frac c s =
        { s with dsp := { s.dsp with lcf := lcf, lsf := lsf, hsf := hsf, hcf := hcf, sat := sat }
                 blk := blk, dl := dl } :=
  ⟨_, _, _, _, _, _, _, frameChannel_eq num s n i frac c rfl⟩

/-- So do all the channels' parts together. -/
theorem frameChannels_footprint (num : Config.Numerics) (n i : Nat) (frac : F64) (s : State) :
    ∃ (lcf lsf hsf hcf : Biquad) (sat : Saturation) (blk : Pair (Memory 32)) (dl : Pair (Memory 64)),
      frameChannels num n i frac s =
        { s with dsp := { s.dsp with lcf := lcf, lsf := lsf, hsf := hsf, hcf := hcf, sat := sat }
                 blk := blk, dl := dl } := by
  unfold frameChannels
  generalize channels s.dsp.nch = l
  induction l generalizing s with
  | nil => exact ⟨_, _, _, _, _, _, _, rfl⟩
  | cons c l ih =>
    obtain ⟨_, _, _, _, _, _, _, hc⟩ := frameChannel_footprint num n i frac c s
    obtain ⟨_, _, _, _, _, _, _, hl⟩ := ih (frameChannel num n i frac c s)
    rw [List.foldl_cons, hl, hc]
    exact ⟨_, _, _, _, _, _, _, rfl⟩

/-- FRAME writes the block context, the DSP registers and the memories; of the registers, not the active
configuration. -/
theorem frame_footprint (num : Config.Numerics) (s : State) :
    ∃ (smooth : Vector Smoother 7) (lcf lsf hsf hcf : Biquad) (sat : Saturation) (phase : F64)
        (blk : Pair (Memory 32)) (dl : Pair (Memory 64)),
      frame num s =
        { s with
          ctx := { s.ctx with
            frameIdx := s.ctx.frameIdx + 1
            phase := if s.ctx.frameIdx + 1 = s.ctx.nsamp then .finish else s.ctx.phase }
          dsp := { s.dsp with
            smooth := smooth, lcf := lcf, lsf := lsf, hsf := hsf, hcf := hcf, sat := sat, wowPhase := phase
            wowPtr := (s.dsp.wowPtr + 1) % s.dsp.len }
          blk := blk, dl := dl } := by
  obtain ⟨_, _, _, _, _, _, _, h⟩ := frameChannels_footprint num s.ctx.frameIdx (frameDelay num s).1
    (frameDelay num s).2 (beginFrame s)
  rw [frame, h, beginFrame_eq s rfl]
  simp only [countFrame, wowAdvance]
  exact ⟨_, _, _, _, _, _, _, _, _, rfl⟩

/-- TONE.SET writes the DSP registers. -/
theorem toneSet_footprint (num : Config.Numerics) (tone : F64) (s : State) :
    toneSet num tone s = { s with dsp := (toneSet num tone s).dsp } := by
  simp only [toneSet, State.setCoefs]

/-! ### Port C (46_host_commands.md R204) -/

/-- A SETPARAM is the clamped write of its holder. -/
theorem exec_setParam (id : BitVec 3) (data : Word) (s : State) :
    exec (setParam id data) s = .next (setClamp (holderIndex id) data s) := by
  obtain ⟨n⟩ := id
  fin_cases n <;> rfl

/-- A port C operation is a clamped write or answers a word on port C. -/
theorem exec_portC_cases {i : Instr} {s t : State} (hport : i.port = some .c) (h : exec i s = .next t) :
    (∃ id w, t = setClamp id w s) ∨ ∃ w, t = s.answerC w := by
  cases i with
  | setWowDepth w => cases h; exact .inl ⟨0, w, rfl⟩
  | setLowCutFreq w => cases h; exact .inl ⟨1, w, rfl⟩
  | setLowCutQ w => cases h; exact .inl ⟨2, w, rfl⟩
  | setHighCutFreq w => cases h; exact .inl ⟨3, w, rfl⟩
  | setHighCutQ w => cases h; exact .inl ⟨4, w, rfl⟩
  | setDrive w => cases h; exact .inl ⟨5, w, rfl⟩
  | setTone w => cases h; exact .inl ⟨6, w, rfl⟩
  | setBypass w => cases h; exact .inl ⟨7, w, rfl⟩
  | getParam id => cases h; exact .inr ⟨_, rfl⟩
  | _ => cases hport

/-! ### Port A (46_host_commands.md R190) -/

/-- What a port A operation can make of the state: held while a block runs, a read's answer, a configuration register
written, a block element written, or a command's effect. -/
inductive PortAEffect (i : Instr) (s : State) : State → Prop
  | held (busy : s.lc = .busy) : PortAEffect i s s
  | answers (w : Word) : PortAEffect i s (s.answerA w)
  | storesRegisters (fsLo fsHi maxBlk nch numSamp : Word) :
      PortAEffect i s
        { s with cfgFsLo := fsLo, cfgFsHi := fsHi, cfgMaxBlk := maxBlk, cfgNch := nch, numSamp := numSamp }
  | storesBlk (c : Chan) (idx : BitVec 13) (w : Word) (op : i = .wrBlk0 idx w ∨ i = .wrBlk1 idx w) :
      PortAEffect i s (s.writeBlk c idx.toNat w)
  | rejects : PortAEffect i s (raiseError .illegalCmd s)
  | prepares (op : i = .cmdPrepare) (free : s.lc ≠ .busy) : PortAEffect i s (commandPrepare hardwareNum s)
  | processes (op : i = .cmdProcess) (free : s.lc ≠ .busy) : PortAEffect i s (commandProcess s)
  | releases (op : i = .cmdRelease) (free : s.lc ≠ .busy) : PortAEffect i s (commandRelease s)

/-- Acceptance of an effect is that effect or a held transaction. -/
theorem PortAEffect.of_whenAccepted {i : Instr} {s t u : State} (h : whenAccepted s u = .next t)
    (effect : s.lc ≠ .busy → PortAEffect i s u) : PortAEffect i s t := by
  obtain ⟨free, rfl⟩ | ⟨busy, rfl⟩ := whenAccepted_cases h
  · exact effect free
  · exact .held busy

/-- A port A operation has one of these effects. -/
theorem exec_portA_cases {i : Instr} {s t : State} (hport : i.port = some .a) (h : exec i s = .next t) :
    PortAEffect i s t := by
  cases i with
  | cmdPrepare => exact .of_whenAccepted h (.prepares rfl)
  | cmdProcess => exact .of_whenAccepted h (.processes rfl)
  | cmdRelease => exact .of_whenAccepted h (.releases rfl)
  | illegalCmd => exact .of_whenAccepted h fun _ => .rejects
  | wrFsLo | wrFsHi | wrMaxBlk | wrNch | wrNumSamp => exact .of_whenAccepted h fun _ => .storesRegisters _ _ _ _ _
  | rdFsLo | rdFsHi | rdMaxBlk | rdNch | rdNumSamp | rdBlk0 | rdBlk1 => exact .of_whenAccepted h fun _ => .answers _
  | rdStatus => cases h; exact .answers _
  | wrBlk0 idx w => exact .of_whenAccepted h fun _ => .storesBlk .c0 idx w (.inl rfl)
  | wrBlk1 idx w => exact .of_whenAccepted h fun _ => .storesBlk .c1 idx w (.inr rfl)
  | _ => cases hport

/-! ### The operations without a port (30_encoding.md R87) -/

/-- A guarded sequencer step answers its effect where it is enabled and the same state elsewhere. -/
theorem next_of_guarded {p : Prop} [Decidable p] {s t u : State}
    (h : (if p then .next u else .next s : Host.Outcome State Fault Refusal) = .next t) :
    (p ∧ t = u) ∨ t = s := by
  split at h
  · exact .inl ⟨‹p›, by injection h with h; exact h.symm⟩
  · exact .inr (by injection h with h; exact h.symm)

/-- A step of the sequencer: FRAME writes the block context, the DSP state and the block buffers. -/
theorem exec_frame_cases {s t : State} (h : exec .frame s = .next t) :
    t = { s with ctx := t.ctx, dsp := t.dsp, blk := t.blk, dl := t.dl } := by
  obtain ⟨-, rfl⟩ | rfl := next_of_guarded h
  · obtain ⟨_, _, _, _, _, _, _, _, _, hframe⟩ := frame_footprint hardwareNum s
    rw [hframe]
  · rfl

/-- BLOCK_START writes the block context and the DSP registers. -/
theorem exec_blockStart_cases {s t : State} (h : exec .blockStart s = .next t) :
    t = { s with ctx := t.ctx, dsp := t.dsp } := by
  obtain ⟨-, rfl⟩ | rfl := next_of_guarded h
  · exact blockStart_footprint hardwareNum s
  · rfl

/-- An internal datapath operation writes the DSP state and its wire. -/
theorem exec_datapath_cases {i : Instr} {s t : State} (hport : i.port = none) (hstart : i ≠ .blockStart)
    (hframe : i ≠ .frame) (hend : i ≠ .blockEnd) (h : exec i s = .next t) :
    t = { s with dsp := t.dsp, dl := t.dl, wire := t.wire } := by
  cases i with
  | blockStart => exact absurd rfl hstart
  | frame => exact absurd rfl hframe
  | blockEnd => exact absurd rfl hend
  | toneSet tone =>
    cases h
    rw [toneSet_footprint]
  | _ => cases hport <;> cases h <;> rfl

/-- An operation without a port is FRAME, or ends a block, or writes the block context, the DSP state and its wire. -/
theorem exec_internal_cases {i : Instr} {s t : State} (hport : i.port = none) (h : exec i s = .next t) :
    (i = .frame ∧ t = { s with ctx := t.ctx, dsp := t.dsp, blk := t.blk, dl := t.dl }) ∨
    (i = .blockEnd ∧ s.lc = .busy ∧ t = blockEnd s) ∨
    t = { s with ctx := t.ctx, dsp := t.dsp, dl := t.dl, wire := t.wire } := by
  by_cases hframe : i = .frame
  · subst hframe
    exact .inl ⟨rfl, exec_frame_cases h⟩
  by_cases hend : i = .blockEnd
  · subst hend
    obtain ⟨⟨busy, -⟩, rfl⟩ | rfl := next_of_guarded h
    · exact .inr (.inl ⟨rfl, busy, rfl⟩)
    · exact .inr (.inr rfl)
  by_cases hstart : i = .blockStart
  · subst hstart
    rw [exec_blockStart_cases h]
    exact .inr (.inr rfl)
  · rw [exec_datapath_cases hport hstart hframe hend h]
    exact .inr (.inr rfl)

/-! ### The lifecycle (10_state.md R22) and the writers (R21, R30, R37) -/

@[simp] theorem setClamp_lc (id : Fin 8) (w : Word) (s : State) : (setClamp id w s).lc = s.lc := by
  rw [setClamp_eq]

/-- What PREPARE leaves: the prepared core, or a configuration error's record. -/
theorem commandPrepare_cases (num : Config.Numerics) (s : State) :
    (legalFs (argFs s) = true ∧ legalMaxBlk (argMaxBlk s) = true ∧ legalNch (argNch s) = true ∧
      commandPrepare num s = prepare num (argFs s) (argMaxBlk s).toNat (argNch s).toNat s) ∨
    ∃ e, isConfigError e = true ∧ commandPrepare num s = raiseError e s := by
  unfold commandPrepare
  split
  · exact .inr ⟨.cfgBadFs, rfl, rfl⟩
  · split
    · exact .inr ⟨.cfgBadBlock, rfl, rfl⟩
    · split
      · exact .inr ⟨.cfgBadNch, rfl, rfl⟩
      · refine .inl ⟨?_, ?_, ?_, rfl⟩ <;> simpa using ‹¬ _ = false›

/-- What PROCESS leaves: a block begun on a prepared core, or a sequence error's record. -/
theorem commandProcess_cases (s : State) :
    (s.lc ≠ .unprepared ∧ legalNumSamp (argNumSamp s) s.dsp.maxBlk = true ∧
      commandProcess s = beginBlock (argNumSamp s).toNat s) ∨
    ∃ e, isConfigError e = false ∧ commandProcess s = raiseError e s := by
  unfold commandProcess
  split
  · exact .inr ⟨.seqNotPrepared, rfl, rfl⟩
  · split
    · exact .inr ⟨.seqBadNumSamp, rfl, rfl⟩
    · exact .inl ⟨‹_›, by simpa using ‹¬ _ = false›, rfl⟩

/-- What RELEASE leaves: nothing done on an unprepared core, else an unprepared core without DSP state. -/
theorem commandRelease_cases (s : State) :
    (s.lc = .unprepared ∧ commandRelease s = s) ∨
    (s.lc ≠ .unprepared ∧ commandRelease s = { s.loseDsp with lc := .unprepared }) := by
  unfold commandRelease
  split
  · exact .inl ⟨‹_›, rfl⟩
  · exact .inr ⟨‹_›, rfl⟩

@[simp] theorem prepare_lc (num : Config.Numerics) (fs : F64) (maxBlk nch : Nat) (s : State) :
    (prepare num fs maxBlk nch s).lc = .idle := rfl

theorem prepare_holder (num : Config.Numerics) (fs : F64) (maxBlk nch : Nat) (s : State) :
    (prepare num fs maxBlk nch s).holder = s.holder := by rw [prepare_eq]

theorem prepare_blk (num : Config.Numerics) (fs : F64) (maxBlk nch : Nat) (s : State) :
    (prepare num fs maxBlk nch s).blk = s.blk := by rw [prepare_eq]

@[simp] theorem raiseError_holder (e : ErrorKind) (s : State) : (raiseError e s).holder = s.holder := by
  unfold raiseError
  split <;> rfl

@[simp] theorem raiseError_blk (e : ErrorKind) (s : State) : (raiseError e s).blk = s.blk := by
  unfold raiseError
  split <;> rfl

/-- No port A operation writes a holder. -/
theorem PortAEffect.holder {i : Instr} {s t : State} (h : PortAEffect i s t) : t.holder = s.holder := by
  cases h with
  | prepares =>
    obtain ⟨-, -, -, heq⟩ | ⟨e, -, heq⟩ := commandPrepare_cases hardwareNum s
    · rw [heq, prepare_holder]
    · rw [heq, raiseError_holder]
  | processes =>
    obtain ⟨-, -, heq⟩ | ⟨e, -, heq⟩ := commandProcess_cases s
    · rw [heq]; rfl
    · rw [heq, raiseError_holder]
  | releases =>
    obtain ⟨-, heq⟩ | ⟨-, heq⟩ := commandRelease_cases s
    · rw [heq]
    · rw [heq]; rfl
  | rejects => exact raiseError_holder _ s
  | _ => rfl

/-- The block buffers' writers on port A are the two block writes. -/
theorem PortAEffect.blk {i : Instr} {s t : State} (h : PortAEffect i s t) :
    t.blk = s.blk ∨ (∃ idx d, i = .wrBlk0 idx d) ∨ ∃ idx d, i = .wrBlk1 idx d := by
  cases h with
  | storesBlk c idx w op => exact .inr (op.imp (⟨idx, w, ·⟩) (⟨idx, w, ·⟩))
  | prepares =>
    left
    obtain ⟨-, -, -, heq⟩ | ⟨e, -, heq⟩ := commandPrepare_cases hardwareNum s
    · rw [heq, prepare_blk]
    · rw [heq, raiseError_blk]
  | processes =>
    left
    obtain ⟨-, -, heq⟩ | ⟨e, -, heq⟩ := commandProcess_cases s
    · rw [heq]; rfl
    · rw [heq, raiseError_blk]
  | releases =>
    left
    obtain ⟨-, heq⟩ | ⟨-, heq⟩ := commandRelease_cases s
    · rw [heq]
    · rw [heq]; rfl
  | rejects => exact .inl (raiseError_blk _ s)
  | _ => exact .inl rfl

/-- The DSP state's writers on port A are PREPARE and RELEASE: a sequence error leaves it. -/
theorem PortAEffect.dsp {i : Instr} {s t : State} (h : PortAEffect i s t) (hprepare : i ≠ .cmdPrepare)
    (hrelease : i ≠ .cmdRelease) : t.dsp = s.dsp ∧ t.dl = s.dl := by
  cases h with
  | prepares op => exact absurd op hprepare
  | releases op => exact absurd op hrelease
  | processes =>
    obtain ⟨-, -, heq⟩ | ⟨e, he, heq⟩ := commandProcess_cases s
    · rw [heq]; exact ⟨rfl, rfl⟩
    · rw [heq, raiseError_sequence he]; exact ⟨rfl, rfl⟩
  | rejects => exact ⟨rfl, rfl⟩
  | _ => exact ⟨rfl, rfl⟩

/-- The transitions a port A operation can make. -/
theorem PortAEffect.lc {i : Instr} {s t : State} (h : PortAEffect i s t) (hne : t.lc ≠ s.lc) :
    (i = .cmdPrepare ∧ s.lc = .unprepared ∧ t.lc = .idle) ∨
    (i = .cmdPrepare ∧ s.lc = .idle ∧ t.lc = .unprepared) ∨
    (i = .cmdRelease ∧ s.lc = .idle ∧ t.lc = .unprepared) ∨
    (i = .cmdProcess ∧ s.lc = .idle ∧ t.lc = .busy) := by
  have two_left (hbusy : s.lc ≠ .busy) : s.lc = .unprepared ∨ s.lc = .idle := by
    cases hlc : s.lc <;> simp_all
  cases h with
  | prepares op free =>
    obtain ⟨-, -, -, heq⟩ | ⟨e, he, heq⟩ := commandPrepare_cases hardwareNum s
    · rw [heq, prepare_lc] at hne ⊢
      exact .inl ⟨op, (two_left free).resolve_right (Ne.symm hne), rfl⟩
    · rw [heq, raiseError_config he] at hne ⊢
      exact .inr (.inl ⟨op, (two_left free).resolve_left (Ne.symm hne), rfl⟩)
  | processes op free =>
    obtain ⟨prepared, -, heq⟩ | ⟨e, he, heq⟩ := commandProcess_cases s
    · rw [heq]
      exact .inr (.inr (.inr ⟨op, (two_left free).resolve_left prepared, rfl⟩))
    · rw [heq, raiseError_sequence he] at hne
      exact absurd rfl hne
  | releases op free =>
    obtain ⟨-, heq⟩ | ⟨prepared, heq⟩ := commandRelease_cases s
    · exact absurd (congrArg State.lc heq) hne
    · rw [heq]
      exact .inr (.inr (.inl ⟨op, (two_left free).resolve_left prepared, rfl⟩))
  | _ => exact absurd rfl hne

/-- Settles O27: the transitions are the three commands' and BLOCK_END's. -/
theorem lifecycleChangesOnlyByTheseTransitions : Obligations.LifecycleChangesOnlyByTheseTransitions := by
  intro i s t h hne
  match hport : i.port with
  | some .a =>
    obtain hc | hc | hc | hc := (exec_portA_cases hport h).lc hne
    · exact .inl hc
    · exact .inr (.inl hc)
    · exact .inr (.inr (.inl hc))
    · exact .inr (.inr (.inr (.inl hc)))
  | some .c =>
    obtain ⟨id, w, rfl⟩ | ⟨w, rfl⟩ := exec_portC_cases hport h
    · exact absurd (setClamp_lc id w s) hne
    · exact absurd rfl hne
  | none =>
    obtain ⟨-, heq⟩ | ⟨op, busy, rfl⟩ | heq := exec_internal_cases hport h
    · exact absurd (congrArg State.lc heq) hne
    · exact .inr (.inr (.inr (.inr ⟨op, busy, rfl⟩)))
    · exact absurd (congrArg State.lc heq) hne

/-- Settles O28: by the port of the operation, from what it can do to the state. -/
theorem everyElementHasItsWriters : Obligations.EveryElementHasItsWriters := by
  intro i s t h
  match hport : i.port with
  | some .a =>
    have effect := exec_portA_cases hport h
    exact ⟨nofun, fun _ => effect.holder, fun _ => effect.dsp, fun hblk => .inr (effect.blk.resolve_left hblk)⟩
  | some .c =>
    refine ⟨fun _ => ?_, fun hne => absurd rfl hne, nofun, fun hblk => absurd ?_ hblk⟩
    all_goals
      obtain ⟨id, w, rfl⟩ | ⟨w, rfl⟩ := exec_portC_cases hport h
      · rw [setClamp_eq]
      · rfl
  | none =>
    refine ⟨nofun, fun _ => ?_, nofun, fun hblk => ?_⟩
    · obtain ⟨-, heq⟩ | ⟨-, -, rfl⟩ | heq := exec_internal_cases hport h
      · rw [heq]
      · rfl
      · rw [heq]
    · obtain ⟨op, -⟩ | ⟨-, -, rfl⟩ | heq := exec_internal_cases hport h
      · exact .inl op
      · exact absurd rfl hblk
      · exact absurd (congrArg State.blk heq) hblk

end Sys2Proof.Machine

/-! PROOFS. The reset, the status word, the holders and PREPARE: what each of them leaves in the state. -/
namespace Sys2Proof.Machine

/-! ### The reset input (70_reset_and_hazards.md R260 to R262) -/

/-- With the reset input first in the schedule the step is the hardware reset. -/
theorem step_resetInput {s : State} {rest : List Agent} (h : s.schedule = .resetInput :: rest) :
    step s = .next (hardwareReset { s with schedule := rest }) := by
  have hagent : chosenAgent s = .resetInput := by simp [chosenAgent, h]
  rw [step_eq, hagent, h]
  rfl

/-- Settles O13: the hardware reset takes each stated element from `State.reset` or from the state before it. -/
theorem hardwareResetAtAnyTime : Obligations.HardwareResetAtAnyTime := by
  intro s rest h
  have hstatus : statusWord (hardwareReset { s with schedule := rest }) = 0x00000000#32 := by
    rw [show statusWord (hardwareReset { s with schedule := rest }) = statusWord State.reset from rfl]
    decide
  exact ⟨_, step_resetInput h, rfl, hstatus, rfl, rfl, rfl, rfl, rfl, rfl, rfl, rfl, rfl, rfl⟩

/-! ### The status word (46_host_commands.md R203) -/

/-- The bits of STATUS, each with its place: the fields below a field are a bit each, the code and its gap four. -/
theorem statusWord_getLsbD (s : State) (k : Nat) :
    (statusWord s).getLsbD k =
      if k = 0 then preparedFlag s else if k = 1 then busyFlag s else if k = 2 then s.cfgErr
      else if k = 3 then s.seqErr else if k < 8 then false else if k < 12 then s.errCode.getLsbD (k - 8)
      else false := by
  simp only [statusWord, BitVec.getLsbD_append, BitVec.getLsbD_ofBool]
  by_cases hk : k < 12
  · interval_cases k <;> simp
  · simp (disch := omega) only [if_neg, BitVec.getLsbD_zero]

/-- Settles O15: RD.STATUS answers the status word, whose bits have their places. -/
theorem statusReadAnswersEveryField : Obligations.StatusReadAnswersEveryField := by
  intro s
  refine ⟨s.answerA (statusWord s), rfl, rfl, ?_⟩
  simp only [State.answerA_replyA, statusWord_getLsbD]
  refine ⟨rfl, rfl, rfl, rfl, fun k hlo hhi => ?_, fun k hk => ?_, fun k hk => ?_⟩
  · simp (disch := omega) only [if_neg, if_pos]
  · simp (disch := omega) only [if_neg, if_pos]
    congr 1
    omega
  · simp (disch := omega) only [if_neg]

/-! ### The holders (46_host_commands.md R205) -/

theorem holdersLegal_iff {s : State} : holdersLegal s = true ↔ ∀ id : Fin 8, legalHolder id s.holder[id] = true := by
  simp [holdersLegal]

/-- In binary32, of two words that are no NaN the one that is not below the other is at least the other. -/
theorem fge32_of_not_flt32 {v u : Word} (hv : isNaN32 v = false) (hu : isNaN32 u = false) (h : flt32 v u = false) :
    fge32 v u = true := by
  simp only [flt32, fge32, hv, hu, Bool.not_false, Bool.true_and, decide_eq_false_iff_not, decide_eq_true_eq] at h ⊢
  omega

/-- The bounds of R6 are legal values of their holders. -/
theorem legalHolder_bounds (id : Fin 8) (h : id ≠ 7) :
    legalHolder id Config.lo[id] = true ∧ legalHolder id Config.hi[id] = true ∧ isNaN32 Config.lo[id] = false ∧
      isNaN32 Config.hi[id] = false := by
  revert id
  decide

/-- SETCLAMP stores a legal value: a bound, or a value between the bounds; for Bypass one of its two values. -/
theorem legalHolder_clampedValue (id : Fin 8) {v : Word} (hv : isNaN32 v = false) :
    legalHolder id (clampedValue id v) = true := by
  by_cases hid : id = 7
  · subst hid
    unfold clampedValue
    rw [if_pos rfl]
    split <;> decide
  · obtain ⟨hlo, hhi, nlo, nhi⟩ := legalHolder_bounds id hid
    unfold clampedValue
    rw [if_neg hid]
    split
    · exact hlo
    · split
      · exact hhi
      · have hge := fge32_of_not_flt32 hv nlo (by simpa using ‹¬ flt32 v _ = true›)
        have hle := fge32_of_not_flt32 nhi hv (by simpa using ‹¬ flt32 _ v = true›)
        unfold legalHolder
        rw [if_neg hid, hv, hge, hle]
        rfl

/-- A clamped write keeps every holder legal. -/
theorem holdersLegal_setClamp {s : State} (h : holdersLegal s = true) (id : Fin 8) (w : Word) :
    holdersLegal (setClamp id w s) = true := by
  rw [holdersLegal_iff] at h ⊢
  intro j
  by_cases hj : j = id
  · subst hj
    cases hw : isNaN32 w
    · rw [setClamp_value hw]
      simpa using legalHolder_clampedValue j hw
    · rw [setClamp_nan hw]
      exact h j
  · rw [setClamp_holder_ne hj]
    exact h j

/-- Issuing a clamped write a second time changes nothing more. -/
theorem setClamp_setClamp (id : Fin 8) (w : Word) (s : State) :
    setClamp id w (setClamp id w s) = setClamp id w s := by
  cases hw : isNaN32 w
  · simp [setClamp_value hw]
  · rw [setClamp_nan hw]

/-- Settles O20: a SETPARAM is a clamped write, which keeps the holders legal and is idempotent. -/
theorem setParamKeepsHoldersLegalAndIsIdempotent : Obligations.SetParamKeepsHoldersLegalAndIsIdempotent := by
  intro id data s h
  refine ⟨_, exec_setParam id data s, holdersLegal_setClamp h _ data, ?_⟩
  rw [exec_setParam, setClamp_setClamp]

/-! ### The delay-line length (44_wow.md R152) -/

/-- The ceiling of a finite number that is not negative. -/
theorem ceilF64_nonneg_eq {x : F64} (fx : finite x = true) (hx : F64.neg? x = false) :
    ceilF64 x = -(-(F64.units x : Int) / (unitsPerOne : Int)) := by
  rw [ceilF64, if_pos fx, F64.exact_nonneg hx]

/-- The ceiling grows with the number. -/
theorem ceilF64_mono {x y : F64} (fx : finite x = true) (fy : finite y = true) (hx : F64.neg? x = false)
    (hy : F64.neg? y = false) (h : F64.mag x ≤ F64.mag y) : ceilF64 x ≤ ceilF64 y := by
  rw [ceilF64_nonneg_eq fx hx, ceilF64_nonneg_eq fy hy]
  have hunits : (F64.units x : Int) ≤ F64.units y := Int.ofNat_le.mpr (F64.units_mono h)
  exact Int.neg_le_neg (Int.ediv_le_ediv (Int.natCast_pos.mpr unitsPerOne_pos) (Int.neg_le_neg hunits))

/-- R152: at a legal rate 50 ms are from 0 to 9600 elements, since the rounded product and quotient grow with the rate. -/
theorem ceil_bufCap_bounds {fs : F64} (h : legalFs fs = true) :
    0 ≤ ceilF64 (fdiv (fmul Config.bufCapMs fs) thousand) ∧
      ceilF64 (fdiv (fmul Config.bufCapMs fs) thousand) ≤ 9600 := by
  obtain ⟨hneg, hfin, -, hmax⟩ := legalFs_parts h
  have hmul := mag_fmul_le (c := Config.bufCapMs) (y := Config.fsMax) (by decide) (by decide) hfin (by decide) hneg
    (by decide) hmax
  have hmulFin : finite (fmul Config.bufCapMs fs) = true :=
    finite_iff.mpr (Nat.lt_of_le_of_lt hmul (by decide +kernel))
  have hmulNeg := neg?_fmul (x := Config.bufCapMs) (by decide) hfin (by decide) hneg
  have hdiv := mag_fdiv_le (c := thousand) (y := fmul Config.bufCapMs Config.fsMax) (by decide) (by decide) (by decide)
    hmulFin (by decide +kernel) hmulNeg (by decide +kernel) hmul
  have hdivFin : finite (fdiv (fmul Config.bufCapMs fs) thousand) = true :=
    finite_iff.mpr (Nat.lt_of_le_of_lt hdiv (by decide +kernel))
  have hdivNeg := neg?_fdiv (y := thousand) hmulFin (by decide) hmulNeg (by decide) (by decide)
  constructor
  · calc (0 : Int) = ceilF64 posZero := by decide +kernel
      _ ≤ _ := ceilF64_mono finite_posZero hdivFin F64.neg?_posZero hdivNeg (by simp)
  · calc _ ≤ ceilF64 (fdiv (fmul Config.bufCapMs Config.fsMax) thousand) :=
          ceilF64_mono hdivFin (by decide +kernel) hdivNeg (by decide +kernel) hdiv
      _ = 9600 := by decide +kernel

theorem lineLength_cast {fs : F64} (h : legalFs fs = true) :
    (lineLength fs : Int) = ceilF64 (fdiv (fmul Config.bufCapMs fs) thousand) + 1 := by
  have := ceil_bufCap_bounds h
  unfold lineLength
  omega

theorem lineLength_bounds {fs : F64} (h : legalFs fs = true) : 0 < lineLength fs ∧ lineLength fs ≤ Config.dlMax := by
  have hceil := ceil_bufCap_bounds h
  have hcast := lineLength_cast h
  simp only [Config.dlMax]
  omega

/-! ### PREPARE (46_host_commands.md R196) -/

/-- Line 4 of PREPARE. -/
theorem legalMaxBlk_iff {m : Int} : legalMaxBlk m = true ↔ 0 ≤ m ∧ m ≤ 8192 := by
  simp only [legalMaxBlk, Bool.and_eq_true, decide_eq_true_eq]
  exact Iff.rfl

/-- Line 5 of PREPARE. -/
theorem legalNch_iff {k : Int} : legalNch k = true ↔ k = 1 ∨ k = 2 := by simp [legalNch]

/-- With legal arguments PREPARE prepares. -/
theorem exec_cmdPrepare_legal {s : State} (free : s.lc ≠ .busy) (hfs : legalFs (argFs s) = true)
    (hblk : legalMaxBlk (argMaxBlk s) = true) (hnch : legalNch (argNch s) = true) :
    exec .cmdPrepare s = .next (prepare hardwareNum (argFs s) (argMaxBlk s).toNat (argNch s).toNat s) := by
  have heq : commandPrepare hardwareNum s = prepare hardwareNum (argFs s) (argMaxBlk s).toNat (argNch s).toNat s := by
    simp [commandPrepare, hfs, hblk, hnch]
  rw [← heq]
  exact whenAccepted_free free

/-- The DSP registers after PREPARE. -/
theorem prepare_dsp (num : Config.Numerics) (fs : F64) (maxBlk nch : Nat) (s : State) :
    (prepare num fs maxBlk nch s).dsp =
      { fs := fs, maxBlk := maxBlk, nch := nch, len := lineLength fs, phaseInc := phaseIncOf fs
        smooth := (prepare num fs maxBlk nch s).dsp.smooth
        lcf := Biquad.resetValue, lsf := Biquad.resetValue, hsf := Biquad.resetValue, hcf := Biquad.resetValue
        sat := Saturation.resetValue, wowPhase := Config.lfoPhase0, wowPtr := 0 } :=
  congrArg State.dsp (prepare_eq num s fs maxBlk nch)

/-- The delay memories after PREPARE. -/
theorem prepare_dl (num : Config.Numerics) (fs : F64) (maxBlk nch : Nat) (s : State) :
    (prepare num fs maxBlk nch s).dl =
      ⟨Memory.clearBelow (lineLength fs) s.dl.c0, Memory.clearBelow (lineLength fs) s.dl.c1⟩ :=
  congrArg State.dl (prepare_eq num s fs maxBlk nch)

/-- After PREPARE every used element of a delay memory is `+0.0`. -/
theorem prepare_readDl (num : Config.Numerics) (fs : F64) (maxBlk nch : Nat) (s : State) (c : Chan) {k : Nat}
    (hk : k < lineLength fs) : (prepare num fs maxBlk nch s).readDl c k = posZero := by
  unfold State.readDl
  rw [prepare_dl]
  cases c
  · exact (Memory.read_clearBelow _ _ _).trans (if_pos hk)
  · exact (Memory.read_clearBelow _ _ _).trans (if_pos hk)

/-- Settles O21: with legal arguments the state PREPARE leaves is written out by `prepare_eq`. -/
theorem prepareAcceptsLegalArguments : Obligations.PrepareAcceptsLegalArguments := by
  intro s free hmin hmax hblk0 hblk1 hnch
  have hfs : legalFs (argFs s) = true := Bool.and_eq_true_iff.mpr ⟨hmin, hmax⟩
  have hdsp := prepare_dsp hardwareNum (argFs s) (argMaxBlk s).toNat (argNch s).toNat s
  have hsmooth := prepare_smooth hardwareNum s (argFs s) (argMaxBlk s).toNat (argNch s).toNat
  have hdl := fun c {k} => prepare_readDl hardwareNum (argFs s) (argMaxBlk s).toNat (argNch s).toNat s c (k := k)
  refine ⟨_, exec_cmdPrepare_legal free hfs (legalMaxBlk_iff.mpr ⟨hblk0, hblk1⟩) (legalNch_iff.mpr hnch), ?_⟩
  refine ⟨by rw [prepare_eq], ?_⟩
  rw [hdsp]
  dsimp only
  refine ⟨rfl, Int.toNat_of_nonneg hblk0, Int.toNat_of_nonneg ?_, rfl, lineLength_cast hfs, ?_, ?_, rfl, rfl, rfl, hdl⟩
  · obtain h | h := hnch <;> rw [argNch, h] <;> decide
  · exact fun p => ⟨congrArg Smoother.cur (hsmooth p), congrArg Smoother.coeff (hsmooth p)⟩
  · intro F
    cases F <;> exact ⟨rfl, fun c => by cases c <;> rfl⟩

/-! ### The reset state (10_state.md R42) -/

/-- An unprepared core satisfies the invariant when its memories, its holders and its record do. -/
theorem MachineInvariant.of_unprepared {s : State} (hlc : s.lc = .unprepared) (hmem : memoriesOk s = true)
    (hholders : holdersLegal s = true) (hrecord : recordOk s = true) : MachineInvariant s where
  memories := hmem
  holders := hholders
  record := hrecord
  config h := absurd hlc h
  audio h := absurd hlc h
  block h := by simp [hlc] at h

/-- Settles O59: the memories are empty, the holders the defaults, the record clear and the core unprepared. -/
theorem resetSatisfiesTheInvariant : Obligations.ResetSatisfiesTheInvariant :=
  .of_unprepared rfl (by decide) (by decide) (by decide)

end Sys2Proof.Machine

/-! PROOFS. The machine invariant: each part of it under each write, then each agent's step, then the step. -/
namespace Sys2Proof.Machine

/-! ### Both channels at once -/

/-- What holds of a written value and of both old values holds of both new ones. -/
theorem Pair.forall_get_set {α : Type} {P : α → Prop} {p : Pair α} {v : α} (hv : P v) (hp : ∀ e, P (p.get e))
    (c e : Chan) : P ((p.set c v).get e) := by
  by_cases h : e = c
  · subst h
    rwa [Pair.get_set]
  · rw [Pair.get_set_ne _ _ h]
    exact hp e

/-! ### The memories (10_state.md R37, R38) -/

/-- A memory in canonical form and within its depth. -/
def MemoryOk {w : Nat} (depth : Nat) (m : Memory w) : Prop := Memory.wf m = true ∧ Memory.within depth m = true

theorem MemoryOk.write {w depth : Nat} {m : Memory w} (h : MemoryOk depth m) {a : Nat} (ha : a < depth) (v : BitVec w) :
    MemoryOk depth (Memory.write m a v) :=
  ⟨Memory.wf_write h.1 a v, Memory.within_write h.2 ha v⟩

theorem MemoryOk.clearBelow {w depth : Nat} {m : Memory w} (h : MemoryOk depth m) (n : Nat) :
    MemoryOk depth (Memory.clearBelow n m) :=
  ⟨Memory.wf_clearBelow n h.1, Memory.within_clearBelow n h.2⟩

theorem memoriesOk_iff {s : State} :
    memoriesOk s = true ↔
      (∀ c, MemoryOk Config.blkMax (s.blk.get c)) ∧ ∀ c, MemoryOk Config.dlMax (s.dl.get c) := by
  simp only [memoriesOk, Bool.and_eq_true, MemoryOk]
  constructor
  · rintro ⟨⟨⟨⟨⟨⟨⟨wb0, wb1⟩, wd0⟩, wd1⟩, ib0⟩, ib1⟩, id0⟩, id1⟩
    exact ⟨fun | .c0 => ⟨wb0, ib0⟩ | .c1 => ⟨wb1, ib1⟩, fun | .c0 => ⟨wd0, id0⟩ | .c1 => ⟨wd1, id1⟩⟩
  · rintro ⟨hblk, hdl⟩
    exact ⟨⟨⟨⟨⟨⟨⟨(hblk .c0).1, (hblk .c1).1⟩, (hdl .c0).1⟩, (hdl .c1).1⟩, (hblk .c0).2⟩, (hblk .c1).2⟩,
      (hdl .c0).2⟩, (hdl .c1).2⟩

theorem memoriesOk_writeBlk {s : State} (h : memoriesOk s = true) (c : Chan) {i : Nat} (hi : i < Config.blkMax)
    (w : Word) : memoriesOk (s.writeBlk c i w) = true := by
  obtain ⟨hblk, hdl⟩ := memoriesOk_iff.mp h
  exact memoriesOk_iff.mpr ⟨Pair.forall_get_set ((hblk c).write hi w) hblk c, hdl⟩

theorem memoriesOk_loseDsp {s : State} (h : memoriesOk s = true) : memoriesOk s.loseDsp = true := by
  obtain ⟨hblk, -⟩ := memoriesOk_iff.mp h
  exact memoriesOk_iff.mpr ⟨hblk, fun | .c0 => Memory.ofCells_ok _ _ | .c1 => Memory.ofCells_ok _ _⟩

theorem memoriesOk_prepare {s : State} (h : memoriesOk s = true) (num : Config.Numerics) (fs : F64)
    (maxBlk nch : Nat) : memoriesOk (prepare num fs maxBlk nch s) = true := by
  obtain ⟨hblk, hdl⟩ := memoriesOk_iff.mp h
  rw [memoriesOk_iff, prepare_blk, prepare_dl]
  exact ⟨hblk, fun | .c0 => (hdl .c0).clearBelow _ | .c1 => (hdl .c1).clearBelow _⟩

/-! ### The error record (60_exceptions.md R231) -/

/-- Error entry leaves a legal record, whatever was recorded before. -/
theorem recordOk_raiseError (e : ErrorKind) (s : State) : recordOk (raiseError e s) = true := by
  cases e <;> simp [raiseError, isConfigError, recordOk, errorCode]

/-! ### The active configuration (10_state.md R31) -/

theorem configLegal_iff {s : State} :
    configLegal s = true ↔
      legalFs s.dsp.fs = true ∧ s.dsp.maxBlk ≤ Config.blkMax ∧ (s.dsp.nch = 1 ∨ s.dsp.nch = 2) ∧
      s.dsp.len = lineLength s.dsp.fs ∧ s.dsp.phaseInc = phaseIncOf s.dsp.fs ∧ s.dsp.wowPtr < s.dsp.len ∧
      s.dsp.len ≤ Config.dlMax := by
  simp only [configLegal, Bool.and_eq_true, Bool.or_eq_true, decide_eq_true_eq, and_assoc]

/-- PREPARE with legal arguments leaves a legal configuration. -/
theorem configLegal_prepare {fs : F64} {maxBlk nch : Nat} (hfs : legalFs fs = true) (hblk : maxBlk ≤ Config.blkMax)
    (hnch : nch = 1 ∨ nch = 2) (num : Config.Numerics) (s : State) :
    configLegal (prepare num fs maxBlk nch s) = true := by
  rw [configLegal_iff, prepare_dsp]
  dsimp only
  exact ⟨hfs, hblk, hnch, rfl, rfl, lineLength_bounds hfs⟩

/-- FRAME keeps the configuration legal: the pointer advances modulo the length. -/
theorem configLegal_frame {s : State} (h : configLegal s = true) (num : Config.Numerics) :
    configLegal (frame num s) = true := by
  rw [configLegal_iff] at h ⊢
  obtain ⟨hfs, hblk, hnch, hlen, hinc, hptr, hmax⟩ := h
  obtain ⟨_, _, _, _, _, _, _, _, _, hframe⟩ := frame_footprint num s
  rw [hframe]
  exact ⟨hfs, hblk, hnch, hlen, hinc, Nat.mod_lt _ (Nat.zero_lt_of_lt hptr), hmax⟩

/-! ### The audio state (45_signal_chain.md R176, R179) -/

@[simp] theorem settled_cond (v : F64) : settled (cond v) = true := decide_eq_true (cond_cond v)

theorem biquadOk_iff {b : Biquad} :
    biquadOk b = true ↔ Coefs.finite b.k = true ∧ ∀ c, settledHist (b.h.get c) = true := by
  simp only [biquadOk, Bool.and_eq_true, and_assoc]
  exact ⟨fun ⟨hk, h0, h1⟩ => ⟨hk, fun | .c0 => h0 | .c1 => h1⟩, fun ⟨hk, h⟩ => ⟨hk, h .c0, h .c1⟩⟩

theorem audioStateOk_iff {s : State} :
    audioStateOk s = true ↔
      (∀ F, biquadOk (s.dsp.filter F) = true) ∧ (∀ c, settled (s.dsp.sat.lp.get c) = true) ∧
      ∀ c, settledBelow s.dsp.len (s.dl.get c) = true := by
  simp only [audioStateOk, Bool.and_eq_true, and_assoc]
  constructor
  · rintro ⟨hlcf, hlsf, hhsf, hhcf, hlp0, hlp1, hdl0, hdl1⟩
    exact ⟨fun | .lcf => hlcf | .lsf => hlsf | .hsf => hhsf | .hcf => hhcf, fun | .c0 => hlp0 | .c1 => hlp1,
      fun | .c0 => hdl0 | .c1 => hdl1⟩
  · rintro ⟨hfilter, hlp, hdl⟩
    exact ⟨hfilter .lcf, hfilter .lsf, hfilter .hsf, hfilter .hcf, hlp .c0, hlp .c1, hdl .c0, hdl .c1⟩

/-- A history shifts settled values in. -/
theorem settledHist_push {h : Hist} {x y : F64} (hh : settledHist h = true) (hx : settled x = true)
    (hy : settled y = true) : settledHist (h.push x y) = true := by
  simp only [settledHist, Hist.push, Bool.and_eq_true] at hh ⊢
  obtain ⟨⟨⟨hx1, -⟩, hy1⟩, -⟩ := hh
  exact ⟨⟨⟨hx, hx1⟩, hy⟩, hy1⟩

/-- A biquad keeps finite coefficients and settled histories when settled values are shifted in. -/
theorem biquadOk_push {b : Biquad} {x y : F64} (hb : biquadOk b = true) (hx : settled x = true)
    (hy : settled y = true) (c : Chan) : biquadOk ⟨b.k, b.h.set c ((b.h.get c).push x y)⟩ = true := by
  obtain ⟨hk, hhist⟩ := biquadOk_iff.mp hb
  exact biquadOk_iff.mpr ⟨hk, Pair.forall_get_set (P := fun e => settledHist e = true)
    (settledHist_push (hhist c) hx hy) hhist c⟩

/-- So it does when its coefficients are replaced by checked ones. -/
theorem biquadOk_checked {b : Biquad} (hb : biquadOk b = true) (k : Coefs) : biquadOk ⟨checked k, b.h⟩ = true :=
  biquadOk_iff.mpr ⟨checked_finite k, (biquadOk_iff.mp hb).2⟩

theorem settledBelow_write {n : Nat} {m : Memory 64} (h : settledBelow n m = true) (a : Nat) {v : F64}
    (hv : settled v = true) : settledBelow n (Memory.write m a v) = true := by
  simp only [settledBelow, List.all_eq_true] at h ⊢
  intro e he
  obtain rfl | hmem := Memory.mem_write he
  · simp [hv]
  · exact h e hmem

/-- Below `n` a cleared memory lists nothing. -/
theorem settledBelow_clearBelow (n : Nat) (m : Memory 64) : settledBelow n (Memory.clearBelow n m) = true := by
  simp only [settledBelow, List.all_eq_true]
  intro e he
  rw [(List.mem_filter.mp he).2, Bool.true_or]

/-- The audio state after PREPARE. -/
theorem audioStateOk_prepare (num : Config.Numerics) (fs : F64) (maxBlk nch : Nat) (s : State) :
    audioStateOk (prepare num fs maxBlk nch s) = true := by
  have hreset : biquadOk Biquad.resetValue = true := by decide
  have hzero : settled posZero = true := by decide
  rw [audioStateOk_iff, prepare_dsp, prepare_dl]
  exact ⟨fun | .lcf | .lsf | .hsf | .hcf => hreset, fun | .c0 | .c1 => hzero,
    fun | .c0 | .c1 => settledBelow_clearBelow _ _⟩

/-- BLOCK_START's coefficients are checked ones. -/
theorem audioStateOk_recompute {s : State} (h : audioStateOk s = true) (num : Config.Numerics) :
    audioStateOk (recompute num s) = true := by
  rw [audioStateOk_iff] at h ⊢
  obtain ⟨hfilter, hlp, hdl⟩ := h
  rw [recompute_eq]
  exact ⟨fun
    | .lcf => biquadOk_checked (hfilter .lcf) _
    | .lsf => biquadOk_checked (hfilter .lsf) _
    | .hsf => biquadOk_checked (hfilter .hsf) _
    | .hcf => biquadOk_checked (hfilter .hcf) _, hlp, hdl⟩

/-! ### FRAME -/

/-- A channel's part of a frame shifts, stores and writes conditioned values only. -/
theorem audioStateOk_frameChannel {s : State} (h : audioStateOk s = true) (num : Config.Numerics) (n i : Nat)
    (frac : F64) (c : Chan) : audioStateOk (frameChannel num n i frac c s) = true := by
  rw [audioStateOk_iff] at h ⊢
  obtain ⟨hfilter, hlp, hdl⟩ := h
  rw [frameChannel_eq num s n i frac c rfl]
  refine ⟨fun
    | .lcf => biquadOk_push (hfilter .lcf) (settled_cond _) (settled_cond _) c
    | .lsf => biquadOk_push (hfilter .lsf) (settled_cond _) (settled_cond _) c
    | .hsf => biquadOk_push (hfilter .hsf) (settled_cond _) (settled_cond _) c
    | .hcf => biquadOk_push (hfilter .hcf) (settled_cond _) (settled_cond _) c, ?_, ?_⟩
  · exact Pair.forall_get_set (P := fun v => settled v = true) (settled_cond _) hlp c
  · exact Pair.forall_get_set (P := fun m => settledBelow s.dsp.len m = true)
      (settledBelow_write (hdl c) _ (settled_cond _)) hdl c

/-- A channel's part of a frame writes at the frame index and at the pointer. -/
theorem memoriesOk_frameChannel {s : State} (h : memoriesOk s = true) (num : Config.Numerics) {n : Nat}
    (hn : n < Config.blkMax) (hptr : s.dsp.wowPtr < Config.dlMax) (i : Nat) (frac : F64) (c : Chan) :
    memoriesOk (frameChannel num n i frac c s) = true := by
  obtain ⟨hblk, hdl⟩ := memoriesOk_iff.mp h
  rw [frameChannel_eq num s n i frac c rfl]
  exact memoriesOk_iff.mpr ⟨Pair.forall_get_set ((hblk c).write hn _) hblk c,
    Pair.forall_get_set ((hdl c).write hptr _) hdl c⟩

/-- So do all the channels' parts together. -/
theorem frameChannels_keeps {s : State} (hmem : memoriesOk s = true) (haudio : audioStateOk s = true)
    (num : Config.Numerics) {n : Nat} (hn : n < Config.blkMax) (hptr : s.dsp.wowPtr < Config.dlMax) (i : Nat)
    (frac : F64) :
    memoriesOk (frameChannels num n i frac s) = true ∧ audioStateOk (frameChannels num n i frac s) = true := by
  unfold frameChannels
  generalize channels s.dsp.nch = l
  induction l generalizing s with
  | nil => exact ⟨hmem, haudio⟩
  | cons c l ih =>
    have hptr' : (frameChannel num n i frac c s).dsp.wowPtr = s.dsp.wowPtr :=
      congrArg SharedView.ptr (shared_frameChannel num n i frac c s)
    rw [List.foldl_cons]
    exact ih (memoriesOk_frameChannel hmem num hn hptr i frac c) (audioStateOk_frameChannel haudio num n i frac c)
      (hptr' ▸ hptr)

/-- Lines 16 to 18 of FRAME touch no memory and no audio state. -/
theorem countFrame_wowAdvance_keeps (s : State) :
    memoriesOk (countFrame (wowAdvance s)) = memoriesOk s ∧
      audioStateOk (countFrame (wowAdvance s)) = audioStateOk s := ⟨rfl, rfl⟩

/-- FRAME keeps the memories and the audio state. -/
theorem frame_keeps {s : State} (hmem : memoriesOk s = true) (haudio : audioStateOk s = true) (num : Config.Numerics)
    (hn : s.ctx.frameIdx < Config.blkMax) (hptr : s.dsp.wowPtr < Config.dlMax) :
    memoriesOk (frame num s) = true ∧ audioStateOk (frame num s) = true := by
  have hbegin : memoriesOk (beginFrame s) = true ∧ audioStateOk (beginFrame s) = true ∧
      (beginFrame s).dsp.wowPtr < Config.dlMax := by
    rw [beginFrame_eq s rfl]
    generalize nextPhase s.dsp.wowPhase s.dsp.phaseInc = phase, (tickAll s).dsp.smooth = smooth
    exact ⟨hmem, haudio, hptr⟩
  obtain ⟨bmem, baudio, bptr⟩ := hbegin
  rw [frame, (countFrame_wowAdvance_keeps _).1, (countFrame_wowAdvance_keeps _).2]
  exact frameChannels_keeps bmem baudio num hn bptr _ _

/-- The block context in FRAMES: the frame index is inside the block. -/
theorem blockLegal_frames {s : State} (hphase : s.ctx.phase = .frames) :
    blockLegal s = true ↔ s.ctx.nsamp ≤ s.dsp.maxBlk ∧ s.ctx.byp = false ∧ s.ctx.frameIdx < s.ctx.nsamp := by
  simp [blockLegal, hphase]

/-- FRAME counts its frame: the block context stays legal, in FRAMES or, after the last frame, in END. -/
theorem blockLegal_frame {s : State} (h : blockLegal s = true) (hphase : s.ctx.phase = .frames)
    (num : Config.Numerics) : blockLegal (frame num s) = true := by
  obtain ⟨hnsamp, hbyp, hidx⟩ := (blockLegal_frames hphase).mp h
  obtain ⟨_, _, _, _, _, _, _, _, _, hframe⟩ := frame_footprint num s
  rw [hframe]
  by_cases hlast : s.ctx.frameIdx + 1 = s.ctx.nsamp
  · simp [blockLegal, hlast, hbyp, hnsamp]
  · simp only [blockLegal, hlast, hphase, hbyp, if_false, Bool.and_eq_true, decide_eq_true_eq, Bool.not_false, true_and]
    omega

/-! ### The sequencer -/

/-- BLOCK_START keeps the invariant: with Bypass the context goes to END, else the coefficients are recomputed. -/
theorem MachineInvariant.blockStart {s : State} (h : MachineInvariant s) (busy : s.lc = .busy)
    (num : Config.Numerics) : MachineInvariant (blockStart num s) := by
  have prepared : s.lc ≠ .unprepared := by simp [busy]
  have hnsamp : s.ctx.nsamp ≤ s.dsp.maxBlk := by
    have := h.block busy
    simp only [blockLegal, Bool.and_eq_true, decide_eq_true_eq] at this
    exact this.1
  unfold Machine.blockStart
  split
  · refine ⟨h.memories, h.holders, h.record, h.config, h.audio, fun _ => ?_⟩
    simp [blockLegal, hnsamp]
  · have haudio := audioStateOk_recompute (h.audio prepared) num
    rw [recompute_eq] at haudio ⊢
    refine ⟨h.memories, h.holders, h.record, h.config, fun _ => haudio, fun _ => ?_⟩
    by_cases hpos : 0 < s.ctx.nsamp
    · simp [blockLegal, hpos, hnsamp]
    · simp [blockLegal, Nat.eq_zero_of_not_pos hpos]

/-- FRAME keeps the invariant. -/
theorem MachineInvariant.frame {s : State} (h : MachineInvariant s) (busy : s.lc = .busy)
    (hphase : s.ctx.phase = .frames) (num : Config.Numerics) : MachineInvariant (frame num s) := by
  have prepared : s.lc ≠ .unprepared := by simp [busy]
  obtain ⟨-, hblk, -, -, -, hptr, hmax⟩ := configLegal_iff.mp (h.config prepared)
  obtain ⟨hnsamp, -, hidx⟩ := (blockLegal_frames hphase).mp (h.block busy)
  obtain ⟨hmem, haudio⟩ := frame_keeps h.memories (h.audio prepared) num
    (Nat.lt_of_lt_of_le hidx (hnsamp.trans hblk)) (Nat.lt_of_lt_of_le hptr hmax)
  have hrest : holdersLegal (Machine.frame num s) = true ∧ recordOk (Machine.frame num s) = true := by
    obtain ⟨_, _, _, _, _, _, _, _, _, hframe⟩ := frame_footprint num s
    rw [hframe]
    exact ⟨h.holders, h.record⟩
  exact ⟨hmem, hrest.1, hrest.2, fun _ => configLegal_frame (h.config prepared) num, fun _ => haudio,
    fun _ => blockLegal_frame (h.block busy) hphase num⟩

/-- BLOCK_END keeps the invariant: the prepared core stays and no block context is left to speak of. -/
theorem MachineInvariant.blockEnd {s : State} (h : MachineInvariant s) (busy : s.lc = .busy) :
    MachineInvariant (blockEnd s) := by
  have prepared : s.lc ≠ .unprepared := by simp [busy]
  exact ⟨h.memories, h.holders, h.record, fun _ => h.config prepared, fun _ => h.audio prepared, nofun⟩

/-- The sequencer's step keeps the invariant. -/
theorem MachineInvariant.stepSequencer {s t : State} (h : MachineInvariant s) (hstep : stepSequencer s = .next t) :
    MachineInvariant t := by
  obtain ⟨-, heq⟩ | ⟨busy, -, heq⟩ | ⟨busy, hphase, heq⟩ | ⟨busy, -, heq⟩ := stepSequencer_cases s <;>
    obtain rfl := Host.Outcome.next.inj (heq.symm.trans hstep)
  · exact h
  · exact h.blockStart busy hardwareNum
  · exact h.frame busy hphase hardwareNum
  · exact h.blockEnd busy

/-! ### The hosts -/

/-- The invariant does not speak of the configuration words, of what the hosts issue and are answered, or of whose turn
it is. -/
theorem MachineInvariant.hostSide {s : State} (h : MachineInvariant s) (fsLo fsHi maxBlk nch numSamp : Word)
    (portA portC : List Access) (schedule : List Agent) (replyA replyC : Word) :
    MachineInvariant
      { s with
        cfgFsLo := fsLo, cfgFsHi := fsHi, cfgMaxBlk := maxBlk, cfgNch := nch, numSamp := numSamp
        portA := portA, portC := portC, schedule := schedule, replyA := replyA, replyC := replyC } :=
  ⟨h.memories, h.holders, h.record, h.config, h.audio, h.block⟩

/-- Error entry keeps the invariant: a configuration error leaves an unprepared core, a sequence error the record
only. -/
theorem MachineInvariant.raiseError {s : State} (h : MachineInvariant s) (e : ErrorKind) :
    MachineInvariant (raiseError e s) := by
  have hrecord := recordOk_raiseError e s
  cases hconfig : isConfigError e
  · rw [raiseError_sequence hconfig] at hrecord ⊢
    exact ⟨h.memories, h.holders, hrecord, h.config, h.audio, h.block⟩
  · rw [raiseError_config hconfig] at hrecord ⊢
    exact .of_unprepared rfl (memoriesOk_loseDsp h.memories) h.holders hrecord

/-- PREPARE keeps the invariant: it establishes the parts about a prepared core or leaves an unprepared one. -/
theorem MachineInvariant.commandPrepare {s : State} (h : MachineInvariant s) (num : Config.Numerics) :
    MachineInvariant (commandPrepare num s) := by
  obtain ⟨hfs, hblk, hnch, heq⟩ | ⟨e, -, heq⟩ := commandPrepare_cases num s
  · rw [heq]
    have hblk' : (argMaxBlk s).toNat ≤ Config.blkMax := by
      have := (legalMaxBlk_iff.mp hblk).2
      simp only [Config.blkMax]
      omega
    have hnch' : (argNch s).toNat = 1 ∨ (argNch s).toNat = 2 := by
      have := legalNch_iff.mp hnch
      omega
    have hholders : holdersLegal (prepare num (argFs s) (argMaxBlk s).toNat (argNch s).toNat s) = true := by
      rw [holdersLegal_iff, prepare_holder]
      exact holdersLegal_iff.mp h.holders
    exact ⟨memoriesOk_prepare h.memories num _ _ _, hholders, rfl, fun _ => configLegal_prepare hfs hblk' hnch' num s,
      fun _ => audioStateOk_prepare num _ _ _ s, nofun⟩
  · rw [heq]
    exact h.raiseError e

/-- PROCESS keeps the invariant: a block begins at frame 0 with a legal count. -/
theorem MachineInvariant.commandProcess {s : State} (h : MachineInvariant s) : MachineInvariant (commandProcess s) := by
  obtain ⟨prepared, hn, heq⟩ | ⟨e, -, heq⟩ := commandProcess_cases s
  · rw [heq]
    refine ⟨h.memories, h.holders, h.record, fun _ => h.config prepared, fun _ => h.audio prepared, fun _ => ?_⟩
    simp only [legalNumSamp, Bool.and_eq_true, decide_eq_true_eq] at hn
    simp [blockLegal, beginBlock, hn]
  · rw [heq]
    exact h.raiseError e

/-- RELEASE keeps the invariant: it leaves an unprepared core. -/
theorem MachineInvariant.commandRelease {s : State} (h : MachineInvariant s) : MachineInvariant (commandRelease s) := by
  obtain ⟨-, heq⟩ | ⟨-, heq⟩ := commandRelease_cases s
  · rwa [heq]
  · rw [heq]
    exact .of_unprepared rfl (memoriesOk_loseDsp h.memories) h.holders h.record

/-- Every effect of a port A operation keeps the invariant. -/
theorem PortAEffect.keeps_invariant {i : Instr} {s t : State} (effect : PortAEffect i s t) (h : MachineInvariant s) :
    MachineInvariant t := by
  cases effect with
  | held => exact h
  | answers => exact h.hostSide _ _ _ _ _ _ _ _ _ _
  | storesRegisters => exact h.hostSide _ _ _ _ _ _ _ _ _ _
  | storesBlk c idx w =>
    have hidx : idx.toNat < Config.blkMax := idx.isLt
    exact ⟨memoriesOk_writeBlk h.memories c hidx w, h.holders, h.record, h.config, h.audio, h.block⟩
  | rejects => exact h.raiseError _
  | prepares => exact h.commandPrepare _
  | processes => exact h.commandProcess
  | releases => exact h.commandRelease

/-- An operation of either port keeps the invariant. -/
theorem MachineInvariant.exec {i : Instr} {s t : State} (h : MachineInvariant s) (hport : i.port ≠ none)
    (hexec : exec i s = .next t) : MachineInvariant t := by
  match hp : i.port with
  | none => exact absurd hp hport
  | some .a => exact (exec_portA_cases hp hexec).keeps_invariant h
  | some .c =>
    obtain ⟨id, w, rfl⟩ | ⟨w, rfl⟩ := exec_portC_cases hp hexec
    · have hholders := holdersLegal_setClamp h.holders id w
      rw [setClamp_eq] at hholders ⊢
      exact ⟨h.memories, hholders, h.record, h.config, h.audio, h.block⟩
    · exact h.hostSide _ _ _ _ _ _ _ _ _ _

/-! ### What a transaction can select (30_encoding.md R87) -/

theorem setParam_port (id : BitVec 3) (data : Word) : (setParam id data).port = some .c := by
  obtain ⟨n⟩ := id
  fin_cases n <;> rfl

theorem reserved_ne_op (p : Port) (write : Bool) (i : Instr) : reserved p write ≠ .op i := by
  cases write <;> nofun

theorem decodePortC_port {write : Bool} {addr : BitVec 16} {data : Word} {i : Instr}
    (h : decodePortC write addr data = .op i) : i.port = some .c := by
  unfold decodePortC at h
  split at h
  · split at h <;> cases h
    · exact setParam_port _ _
    · rfl
  · exact absurd h (reserved_ne_op _ _ _)

theorem decodeCmd_port {write : Bool} {data : Word} {i : Instr} (h : decodeCmd write data = .op i) :
    i.port = some .a := by
  unfold decodeCmd at h
  split_ifs at h <;> cases h <;> rfl

theorem decodeRegister_port {write : Bool} {addr : BitVec 16} {data : Word} {i : Instr}
    (h : decodeRegister write addr data = .op i) : i.port = some .a := by
  unfold decodeRegister at h
  split at h <;> split at h <;> cases h <;> rfl

theorem decodePortA_port {write : Bool} {addr : BitVec 16} {data : Word} {i : Instr}
    (h : decodePortA write addr data = .op i) : i.port = some .a := by
  unfold decodePortA at h
  split at h
  · exact decodeCmd_port h
  split at h
  · exact decodeRegister_port h
  split at h
  · split at h <;> cases h <;> rfl
  split at h
  · split at h <;> cases h <;> rfl
  · exact absurd h (reserved_ne_op _ _ _)

/-- A transaction selects an operation of one of the ports. -/
theorem decode_port_ne_none {t : TWord} {i : Instr} (h : decode t = .op i) : i.port ≠ none := by
  unfold decode at h
  split at h
  · simp [decodePortC_port h]
  · simp [decodePortA_port h]

/-- An accepted transaction keeps the invariant. -/
theorem MachineInvariant.runDecoded {w : TWord} {s t : State} (h : MachineInvariant s)
    (hrun : runDecoded (decode w) s = .next t) : MachineInvariant t := by
  match hd : decode w with
  | .op i =>
    rw [hd] at hrun
    exact h.exec (decode_port_ne_none hd) hrun
  | .reservedWrite _ =>
    rw [hd] at hrun
    cases hrun
    exact h
  | .reservedRead p =>
    rw [hd] at hrun
    cases hrun
    cases p <;> exact h.hostSide _ _ _ _ _ _ _ _ _ _

/-! ### The step -/

/-- The audio host's step keeps the invariant. -/
theorem MachineInvariant.stepAudio {s t : State} (h : MachineInvariant s) (hstep : stepAudio s = .next t) :
    MachineInvariant t := by
  obtain ⟨-, heq⟩ | ⟨_, _, -, -, heq⟩ | ⟨_, rest, -, -, heq⟩ := stepAudio_cases s <;> rw [heq] at hstep
  · cases hstep; exact h
  · cases hstep; exact h
  · exact (h.hostSide _ _ _ _ _ rest _ _ _ _).runDecoded hstep

/-- The control host's step keeps the invariant. -/
theorem MachineInvariant.stepControl {s t : State} (h : MachineInvariant s) (hstep : stepControl s = .next t) :
    MachineInvariant t := by
  obtain ⟨-, heq⟩ | ⟨_, rest, -, heq⟩ := stepControl_cases s <;> rw [heq] at hstep
  · cases hstep; exact h
  · exact (h.hostSide _ _ _ _ _ _ rest _ _ _).runDecoded hstep

/-- The reset input leaves an unprepared core with the words of BLK it found. -/
theorem MachineInvariant.hardwareReset {s : State} (h : MachineInvariant s) : MachineInvariant (hardwareReset s) := by
  obtain ⟨hblk, -⟩ := memoriesOk_iff.mp h.memories
  refine .of_unprepared rfl (memoriesOk_iff.mpr ⟨hblk, ?_⟩) resetSatisfiesTheInvariant.holders
    resetSatisfiesTheInvariant.record
  exact (memoriesOk_iff.mp resetSatisfiesTheInvariant.memories).2

/-- Settles O60: the chosen agent's step keeps the invariant, whichever agent it is. -/
theorem everyStepKeepsTheInvariant : Obligations.EveryStepKeepsTheInvariant := by
  intro s t h hstep
  rw [step_eq] at hstep
  have h' : MachineInvariant { s with schedule := s.schedule.tail } := h.hostSide _ _ _ _ _ _ _ _ _ _
  cases hagent : chosenAgent s <;> rw [hagent] at hstep
  case audioHost => exact h'.stepAudio hstep
  case controlHost => exact h'.stepControl hstep
  case sequencer => exact h'.stepSequencer hstep
  case resetInput =>
    cases hstep
    exact h'.hardwareReset

end Sys2Proof.Machine

/-! PROOFS. The oscillator's phase (44_wow.md R154): the advance is at most `π`, so one subtraction of `2π` brings the
phase back into `[0, 2π)`, roundings included. -/
namespace Sys2Proof.Machine

/-! ### A sum that is not negative -/

/-- A finite sum whose exact value is not negative, as a pattern: of two zeros, not both are `-0.0`. -/
theorem fadd_of_exact_nonneg {x y : F64} (fx : finite x = true) (fy : finite y = true)
    (hsign : F64.neg? x = false ∨ F64.neg? y = false) (h : 0 ≤ F64.exact x + F64.exact y) :
    fadd x y = packF64 false (nearestMag 52 infMag (F64.exact x + F64.exact y).toNat 1) := by
  have hand : (F64.neg? x && F64.neg? y) = false := by
    obtain hx | hy := hsign
    · rw [hx, Bool.false_and]
    · rw [hy, Bool.and_false]
  unfold fadd
  simp only [isNaN_of_finite fx, isNaN_of_finite fy, isInf_of_finite fx, isInf_of_finite fy, hand, Bool.or_self,
    Bool.false_eq_true, if_false]
  split
  · rename_i hzero
    rw [hzero]
    decide
  · exact roundUnits_nonneg h

/-! ### The range `[0, 2π)` -/

/-- A value from 0 (of either sign) to below `2π`. -/
def InPhaseRange (x : F64) : Prop := fge x posZero = true ∧ flt x Config.twoPi = true

theorem phaseInRange_iff {s : State} : phaseInRange s = true ↔ InPhaseRange s.dsp.wowPhase := Bool.and_eq_true_iff

/-- A number in the range is finite, and its exact value is from 0 to that of `2π`. -/
theorem InPhaseRange.bounds {x : F64} (h : InPhaseRange x) :
    finite x = true ∧ 0 ≤ F64.exact x ∧ F64.exact x ≤ F64.units Config.twoPi := by
  obtain ⟨hge, hlt⟩ := h
  simp only [fge, fle, flt, Bool.and_eq_true, decide_eq_true_eq] at hge hlt
  obtain ⟨-, hge⟩ := hge
  obtain ⟨-, hlt⟩ := hlt
  rw [F64.key_nonneg F64.neg?_posZero, F64.mag_posZero] at hge
  rw [F64.key_nonneg (x := Config.twoPi) (by decide)] at hlt
  have htwoPi : F64.mag Config.twoPi < infMag := by decide
  cases hneg : F64.neg? x
  · rw [F64.key_nonneg hneg] at hlt
    rw [F64.exact_nonneg hneg]
    exact ⟨finite_iff.mpr (by omega), Int.natCast_nonneg _, Int.ofNat_le.mpr (F64.units_mono (by omega))⟩
  · have hmag : F64.mag x = 0 := by
      simp only [F64.key, hneg, if_true] at hge
      omega
    have hexact : F64.exact x = 0 := by simp [F64.exact, F64.units, unitsOf, hmag]
    rw [hexact]
    exact ⟨finite_iff.mpr (by omega), Int.le_refl 0, Int.natCast_nonneg _⟩

/-- A pattern below that of `2π`, without a sign, is in the range. -/
theorem inPhaseRange_of_mag {x : F64} (hneg : F64.neg? x = false) (hmag : F64.mag x < F64.mag Config.twoPi) :
    InPhaseRange x := by
  have htwoPi : F64.mag Config.twoPi < infMag := by decide
  have hnan : isNaN x = false := isNaN_of_finite (finite_iff.mpr (by omega))
  refine ⟨(fle_nonneg F64.neg?_posZero hneg isNaN_posZero hnan).mpr (by simp), ?_⟩
  exact (flt_nonneg hneg (by decide) hnan (by decide)).mpr hmag

/-! ### The advance (44_wow.md R151) -/

/-- At a legal rate the advance is a finite number from 0 to `π`. -/
theorem phaseIncOf_bounds {fs : F64} (h : legalFs fs = true) :
    finite (phaseIncOf fs) = true ∧ F64.neg? (phaseIncOf fs) = false ∧
      F64.units (phaseIncOf fs) ≤ F64.units Config.pi := by
  obtain ⟨hneg, hfin, hmin, -⟩ := legalFs_parts h
  have hone : F64.mag one ≠ 0 := by decide
  have hle : F64.mag (phaseIncOf fs) ≤ F64.mag (phaseIncOf one) :=
    mag_fdiv_anti (by decide +kernel) (by decide +kernel) isFraction_one.finite hfin isFraction_one.1 hneg hone hmin
  have hpi : phaseIncOf one = Config.pi := by decide +kernel
  rw [hpi] at hle
  refine ⟨finite_iff.mpr (Nat.lt_of_le_of_lt hle (by decide)), ?_, F64.units_mono hle⟩
  exact neg?_fdiv (by decide +kernel) hfin (by decide +kernel) hneg (by omega)

/-! ### The next phase (44_wow.md R154) -/

/-- The pattern of the greatest sum of a phase and its advance, `2π + π`. -/
def maxAdvancedMag : Nat := nearestMag 52 infMag (F64.units Config.twoPi + F64.units Config.pi) 1

/-- Even the greatest sum is finite, and less than `2π` above `2π`. -/
theorem maxAdvancedMag_facts :
    maxAdvancedMag < infMag ∧
      nearestMag 52 infMag (unitsOf 52 maxAdvancedMag - F64.units Config.twoPi) 1 < F64.mag Config.twoPi := by
  decide +kernel

/-- The sum of a phase and an advance: not negative, and at most the greatest sum. -/
theorem fadd_phase_bounds {x inc : F64} (hx : InPhaseRange x) (finc : finite inc = true)
    (hneg : F64.neg? inc = false) (hinc : F64.units inc ≤ F64.units Config.pi) :
    F64.neg? (fadd x inc) = false ∧ F64.mag (fadd x inc) ≤ maxAdvancedMag := by
  obtain ⟨fx, hlo, hhi⟩ := hx.bounds
  have hexact : F64.exact inc = F64.units inc := F64.exact_nonneg hneg
  rw [fadd_of_exact_nonneg fx finc (.inr hneg) (by omega), mag_nearest, neg?_nearest]
  exact ⟨rfl, nearestMag_mono Nat.one_pos Nat.one_pos (by omega)⟩

/-- Taking `2π` from a sum that has reached it gives a phase. -/
theorem inPhaseRange_fsub_twoPi {q : F64} (hneg : F64.neg? q = false) (hmax : F64.mag q ≤ maxAdvancedMag)
    (hge : F64.mag Config.twoPi ≤ F64.mag q) : InPhaseRange (fsub q Config.twoPi) := by
  obtain ⟨hfin, hdiff⟩ := maxAdvancedMag_facts
  have fq : finite q = true := finite_iff.mpr (Nat.lt_of_le_of_lt hmax hfin)
  have hlo : F64.units Config.twoPi ≤ F64.units q := F64.units_mono hge
  have hhi : F64.units q ≤ unitsOf 52 maxAdvancedMag := unitsOf_mono hmax
  have hexact : F64.exact q + F64.exact (fneg Config.twoPi) = ((F64.units q - F64.units Config.twoPi : Nat) : Int) := by
    rw [F64.exact_fneg, F64.exact_nonneg hneg, F64.exact_nonneg (x := Config.twoPi) (by decide)]
    omega
  have hround : nearestMag 52 infMag (F64.units q - F64.units Config.twoPi) 1 < F64.mag Config.twoPi :=
    Nat.lt_of_le_of_lt (nearestMag_mono Nat.one_pos Nat.one_pos (by omega)) hdiff
  unfold fsub
  rw [fadd_of_exact_nonneg fq (by decide) (.inl hneg) (by rw [hexact]; exact Int.natCast_nonneg _), hexact,
    Int.toNat_natCast]
  exact inPhaseRange_of_mag (neg?_nearest _ _) (by rwa [mag_nearest])

/-- The phase after one frame is a phase. -/
theorem inPhaseRange_nextPhase {x inc : F64} (hx : InPhaseRange x) (finc : finite inc = true)
    (hneg : F64.neg? inc = false) (hinc : F64.units inc ≤ F64.units Config.pi) :
    InPhaseRange (nextPhase x inc) := by
  obtain ⟨qneg, qmax⟩ := fadd_phase_bounds hx finc hneg hinc
  have qnan : isNaN (fadd x inc) = false :=
    isNaN_of_finite (finite_iff.mpr (Nat.lt_of_le_of_lt qmax maxAdvancedMag_facts.1))
  have hreached : fge (fadd x inc) Config.twoPi = true ↔ F64.mag Config.twoPi ≤ F64.mag (fadd x inc) :=
    fle_nonneg (by decide) qneg (by decide) qnan
  simp only [nextPhase]
  split
  · exact inPhaseRange_fsub_twoPi qneg qmax (hreached.mp ‹_›)
  · exact inPhaseRange_of_mag qneg (Nat.lt_of_not_le (mt hreached.mpr ‹_›))

/-- Settles O54: WOW.LFO's new phase is `nextPhase` of a phase and an advance of at most `π`. -/
theorem phaseStaysInRange : Obligations.PhaseStaysInRange := by
  intro s hfs hinc hphase
  obtain ⟨finc, hneg, hle⟩ := phaseIncOf_bounds hfs
  refine ⟨(wowLfo s).answer (.real (lfoOut hardwareNum s)), rfl, phaseInRange_iff.mpr ?_⟩
  have hnext := inPhaseRange_nextPhase (phaseInRange_iff.mp hphase) finc hneg hle
  rw [← hinc] at hnext
  exact hnext

end Sys2Proof.Machine

/-! PROOFS. Family 20_memory.md: the step of the agent the schedule names, and what each agent's step does with the
transaction that waits at its port or with the phase of the block. -/
namespace Sys2Proof.Machine

/-! ### Who moves (20_memory.md R57) -/

/-- An unread entry of the schedule names the agent that moves, and is used up. -/
theorem step_of_schedule {s : State} {agent : Agent} {rest : List Agent} (h : s.schedule = agent :: rest) :
    step s = agentStep agent { s with schedule := rest } := by
  have hagent : chosenAgent s = agent := by simp [chosenAgent, h]
  rw [step_eq, hagent, h, List.tail_cons]

/-! ### The audio host (20_memory.md R58) -/

/-- What is held at port A: anything but RD.STATUS, while a block runs. -/
theorem heldOnA_iff {s : State} {d : Decoded} : heldOnA s d = true ↔ s.lc = .busy ∧ d ≠ .op .rdStatus := by
  simp [heldOnA, busyFlag]

/-- A held transaction stays in the queue, and the audio host's step changes nothing. -/
theorem stepAudio_of_held {s : State} {a : Access} {queue : List Access} (hport : s.portA = a :: queue)
    (hheld : heldOnA s (decode (portAWord a)) = true) : stepAudio s = .next s := by
  simp [stepAudio, hport, hheld]

/-- A transaction that is not held leaves the queue, and its effect happens. -/
theorem stepAudio_of_accepted {s : State} {a : Access} {queue : List Access} (hport : s.portA = a :: queue)
    (haccepted : ¬ heldOnA s (decode (portAWord a)) = true) :
    stepAudio s = runDecoded (decode (portAWord a)) { s with portA := queue } := by
  simp [stepAudio, hport, haccepted]

/-! ### The control host (20_memory.md R56) -/

/-- The oldest transaction at port C is accepted whatever the lifecycle state. -/
theorem stepControl_of_waiting {s : State} {a : Access} {queue : List Access} (hport : s.portC = a :: queue) :
    stepControl s = runDecoded (decode (portCWord a)) { s with portC := queue } := by
  simp [stepControl, hport]

/-! ### The sequencer (45_signal_chain.md R171) -/

/-- The operation that each phase of a block enables. -/
def enabledStep : BlockPhase → Instr
  | .start => .blockStart
  | .frames => .frame
  | .finish => .blockEnd

/-- While a block runs the sequencer's step is the operation its phase enables. -/
theorem stepSequencer_of_busy {s : State} (h : s.lc = .busy) : stepSequencer s = exec (enabledStep s.ctx.phase) s := by
  cases hphase : s.ctx.phase <;> simp [stepSequencer, enabledStep, h, hphase]

/-! ### The step, agent by agent -/

/-- The audio host moves and its transaction is an operation that is not held. -/
theorem step_audioHost_of_op {s : State} {rest : List Agent} {a : Access} {queue : List Access} {i : Instr}
    (hsched : s.schedule = .audioHost :: rest) (hport : s.portA = a :: queue) (hdec : decode (portAWord a) = .op i)
    (hfree : s.lc ≠ .busy ∨ i = .rdStatus) : step s = exec i { s with schedule := rest, portA := queue } := by
  have haccepted : ¬ heldOnA { s with schedule := rest } (decode (portAWord a)) = true := by
    rw [heldOnA_iff, hdec]
    rintro ⟨busy, hne⟩
    obtain hlc | rfl := hfree
    · exact hlc busy
    · exact hne rfl
  calc step s = stepAudio { s with schedule := rest } := step_of_schedule hsched
    _ = runDecoded (decode (portAWord a)) { s with schedule := rest, portA := queue } :=
      stepAudio_of_accepted hport haccepted
    _ = exec i { s with schedule := rest, portA := queue } := by rw [hdec]; rfl

/-- The control host moves and its transaction is an operation. -/
theorem step_controlHost_of_op {s : State} {rest : List Agent} {a : Access} {queue : List Access} {i : Instr}
    (hsched : s.schedule = .controlHost :: rest) (hport : s.portC = a :: queue)
    (hdec : decode (portCWord a) = .op i) : step s = exec i { s with schedule := rest, portC := queue } :=
  calc step s = stepControl { s with schedule := rest } := step_of_schedule hsched
    _ = runDecoded (decode (portCWord a)) { s with schedule := rest, portC := queue } :=
      stepControl_of_waiting hport
    _ = exec i { s with schedule := rest, portC := queue } := by rw [hdec]; rfl

/-- The sequencer moves while a block runs. -/
theorem step_sequencer_of_busy {s : State} {rest : List Agent} (hsched : s.schedule = .sequencer :: rest)
    (busy : s.lc = .busy) : step s = exec (enabledStep s.ctx.phase) { s with schedule := rest } :=
  calc step s = stepSequencer { s with schedule := rest } := step_of_schedule hsched
    _ = exec (enabledStep s.ctx.phase) { s with schedule := rest } := stepSequencer_of_busy busy

/-- Settles O7: the two hosts run what their oldest transaction decodes to, the sequencer what its phase enables. -/
theorem stepRunsTheDecodedInstruction : Obligations.StepRunsTheDecodedInstruction := by
  intro s rest a queue i
  refine ⟨step_audioHost_of_op, step_controlHost_of_op, fun hsched busy => ?_⟩
  have hstep := step_sequencer_of_busy hsched busy
  refine ⟨fun hphase => ?_, fun hphase => ?_, fun hphase => ?_⟩ <;> rw [hstep, hphase] <;> rfl

/-- Settles O9: a transaction other than RD.STATUS is held while a block runs, and only the schedule's entry goes. -/
theorem portAHoldsWhileBusy : Obligations.PortAHoldsWhileBusy := by
  intro s rest a queue busy hsched hport hne
  have hheld : heldOnA { s with schedule := rest } (decode (portAWord a)) = true := heldOnA_iff.mpr ⟨busy, hne⟩
  calc step s = stepAudio { s with schedule := rest } := step_of_schedule hsched
    _ = .next { s with schedule := rest } := stepAudio_of_held hport hheld

end Sys2Proof.Machine

/-! PROOFS. Family 30_encoding.md: the classes of addresses, what the decoder reads in each, and the table of R79 row by
row. -/
namespace Sys2Proof

-- One theorem after another, as in Tests/Slice0.lean: each waiting kernel check would hold a thread.
set_option Elab.async false

/-! ### The classes of addresses (30_encoding.md R74, R75, R78) -/

theorem append_toNat {m n : Nat} (x : BitVec m) (y : BitVec n) : (x ++ y).toNat = x.toNat * 2 ^ n + y.toNat := by
  rw [BitVec.toNat_append, ← Nat.shiftLeft_add_eq_or_of_lt y.isLt, Nat.shiftLeft_eq]

theorem blk0Addr_toNat (idx : BitVec 13) : (blk0Addr idx).toNat = 0x4000 + idx.toNat := append_toNat _ _

theorem blk1Addr_toNat (idx : BitVec 13) : (blk1Addr idx).toNat = 0x8000 + idx.toNat := append_toNat _ _

theorem paramAddr_toNat (id : BitVec 3) : (paramAddr id).toNat = 0x0010 + id.toNat := append_toNat _ _

@[simp] theorem blk0Addr_select (idx : BitVec 13) : (blk0Addr idx).extractLsb' 13 3 = 0b010#3 :=
  BitVec.extractLsb'_append_eq_left

@[simp] theorem blk0Addr_index (idx : BitVec 13) : (blk0Addr idx).extractLsb' 0 13 = idx :=
  BitVec.extractLsb'_append_eq_right

@[simp] theorem blk1Addr_select (idx : BitVec 13) : (blk1Addr idx).extractLsb' 13 3 = 0b100#3 :=
  BitVec.extractLsb'_append_eq_left

@[simp] theorem blk1Addr_index (idx : BitVec 13) : (blk1Addr idx).extractLsb' 0 13 = idx :=
  BitVec.extractLsb'_append_eq_right

@[simp] theorem paramAddr_select (id : BitVec 3) : (paramAddr id).extractLsb' 3 13 = 0x0002#13 :=
  BitVec.extractLsb'_append_eq_left

@[simp] theorem paramAddr_id (id : BitVec 3) : (paramAddr id).extractLsb' 0 3 = id :=
  BitVec.extractLsb'_append_eq_right

/-- The addresses of `STATUS` and the host registers. -/
def registerAddrs : List (BitVec 16) := [1#16, 2#16, 3#16, 4#16, 5#16, 6#16]

theorem mem_registerAddrs {a : BitVec 16} : a ∈ registerAddrs ↔
    a = 1#16 ∨ a = 2#16 ∨ a = 3#16 ∨ a = 4#16 ∨ a = 5#16 ∨ a = 6#16 := by simp [registerAddrs]

theorem mem_registerAddrs_iff_range {a : BitVec 16} : a ∈ registerAddrs ↔ a ≠ 0x0000#16 ∧ a.toNat ≤ 6 := by
  rw [mem_registerAddrs]
  bv_omega

theorem paramId_cases : ∀ id : BitVec 3,
    id = 0#3 ∨ id = 1#3 ∨ id = 2#3 ∨ id = 3#3 ∨ id = 4#3 ∨ id = 5#3 ∨ id = 6#3 ∨ id = 7#3 := by decide

/-- An address of port A that names no register and no block element. -/
def OutsideA (a : BitVec 16) : Prop :=
  6 < a.toNat ∧ a.extractLsb' 13 3 ≠ 0b010#3 ∧ a.extractLsb' 13 3 ≠ 0b100#3

/-- An address of port C that names no parameter. -/
def OutsideC (a : BitVec 16) : Prop := a.extractLsb' 3 13 ≠ 0x0002#13

/-- Every word, by the class of its address: the five ordered cases of R78, those of port C and of the blocks in two
each. -/
theorem TWord.by_address {P : TWord → Prop}
    (param : ∀ w id d, P (.make true w (paramAddr id) d))
    (outsideC : ∀ w a d, OutsideC a → P (.make true w a d))
    (cmd : ∀ w d, P (.make false w 0x0000#16 d))
    (register : ∀ w a d, a ∈ registerAddrs → P (.make false w a d))
    (blk0 : ∀ w idx d, P (.make false w (blk0Addr idx) d))
    (blk1 : ∀ w idx d, P (.make false w (blk1Addr idx) d))
    (outsideA : ∀ w a d, OutsideA a → P (.make false w a d)) (t : TWord) : P t := by
  have split_addr {m n : Nat} {a : BitVec (m + n)} {p : BitVec m} (h : a.extractLsb' n m = p) :
      p ++ a.extractLsb' 0 n = a := by rw [← h, BitVec.extractLsb'_append_extractLsb']
  rw [← t.make_fields]
  generalize t.isPortC = p, t.isWrite = w, t.addr = a, t.data = d
  cases p
  case true =>
    by_cases hid : a.extractLsb' 3 13 = 0x0002#13
    · exact split_addr (m := 13) hid ▸ param w (a.extractLsb' 0 3) d
    · exact outsideC w a d hid
  case false =>
    by_cases hreg : a.toNat ≤ 6
    · by_cases hcmd : a = 0x0000#16
      · exact hcmd ▸ cmd w d
      · exact register w a d (mem_registerAddrs_iff_range.mpr ⟨hcmd, hreg⟩)
    · by_cases h0 : a.extractLsb' 13 3 = 0b010#3
      · exact split_addr (m := 3) h0 ▸ blk0 w (a.extractLsb' 0 13) d
      · by_cases h1 : a.extractLsb' 13 3 = 0b100#3
        · exact split_addr (m := 3) h1 ▸ blk1 w (a.extractLsb' 0 13) d
        · exact outsideA w a d ⟨Nat.lt_of_not_le hreg, h0, h1⟩

/-! ### What the decoder reads in each class (R78) -/

theorem decode_param (w : Bool) (id : BitVec 3) (d : Word) :
    decode (.make true w (paramAddr id) d) = .op (if w then setParam id d else .getParam id) := by
  cases w <;> simp [decode, decodePortC]

theorem decode_outsideC (w : Bool) {a : BitVec 16} (d : Word) (h : OutsideC a) :
    decode (.make true w a d) = reserved .c w := by
  unfold OutsideC at h
  simp [decode, decodePortC, h]

theorem decode_portA (w : Bool) (a : BitVec 16) (d : Word) : decode (.make false w a d) = decodePortA w a d := by
  simp [decode]

theorem decode_cmd (w : Bool) (d : Word) : decode (.make false w 0x0000#16 d) = decodeCmd w d :=
  decode_portA w 0x0000#16 d

theorem illegalData_iff {d : Word} : illegalData d = true ↔ d ≠ 1#32 ∧ d ≠ 2#32 ∧ d ≠ 3#32 := by
  simp [illegalData, and_assoc]

/-- The data of a write of `CMD`: one of the three codes, or illegal (R235). -/
theorem cmdData_cases (d : Word) : d = 1#32 ∨ d = 2#32 ∨ d = 3#32 ∨ illegalData d = true := by
  rw [illegalData_iff]
  tauto

theorem decodeCmd_illegal {d : Word} (h : illegalData d = true) : decodeCmd true d = .op (.illegalCmd d) := by
  obtain ⟨h1, h2, h3⟩ := illegalData_iff.mp h
  simp [decodeCmd, h1, h2, h3]

theorem decode_register (w : Bool) {a : BitVec 16} (d : Word) (h : a ∈ registerAddrs) :
    decode (.make false w a d) = decodeRegister w a d := by
  obtain ⟨hcmd, hreg⟩ := mem_registerAddrs_iff_range.mp h
  simp [decode_portA, decodePortA, hcmd, hreg]

theorem decode_blk0 (w : Bool) (idx : BitVec 13) (d : Word) :
    decode (.make false w (blk0Addr idx) d) = .op (if w then .wrBlk0 idx d else .rdBlk0 idx) := by
  have hcmd : blk0Addr idx ≠ 0x0000#16 := by simp [BitVec.toNat_eq, blk0Addr_toNat]
  have hreg : ¬ (blk0Addr idx).toNat ≤ 6 := by rw [blk0Addr_toNat]; omega
  cases w <;> simp [decode_portA, decodePortA, hcmd, hreg]

theorem decode_blk1 (w : Bool) (idx : BitVec 13) (d : Word) :
    decode (.make false w (blk1Addr idx) d) = .op (if w then .wrBlk1 idx d else .rdBlk1 idx) := by
  have hcmd : blk1Addr idx ≠ 0x0000#16 := by simp [BitVec.toNat_eq, blk1Addr_toNat]
  have hreg : ¬ (blk1Addr idx).toNat ≤ 6 := by rw [blk1Addr_toNat]; omega
  cases w <;> simp [decode_portA, decodePortA, hcmd, hreg]

theorem decode_outsideA (w : Bool) {a : BitVec 16} (d : Word) (h : OutsideA a) :
    decode (.make false w a d) = reserved .a w := by
  obtain ⟨hreg, h0, h1⟩ := h
  have hcmd : a ≠ 0x0000#16 := by rintro rfl; simp at hreg
  simp [decode_portA, decodePortA, hcmd, Nat.not_le.mpr hreg, h0, h1]

@[simp] theorem op?_op (i : Instr) : (Decoded.op i).op? = some i := rfl

@[simp] theorem op?_reserved (port : Port) (w : Bool) : (reserved port w).op? = none := by cases w <;> rfl

theorem op?_eq_some {d : Decoded} {i : Instr} : d.op? = some i ↔ d = .op i := by
  cases d <;> simp [Decoded.op?]

/-! ### Decoding what was encoded -/

/-- The transaction word of a well-formed operation, where it has one, decodes to it. -/
def RoundTrips (i : Instr) : Prop := i.wellFormed = true → ∀ t, encode i = some t → decode t = .op i

theorem roundTrips_of_encode {i : Instr} {t : TWord} (henc : encode i = some t)
    (hdec : i.wellFormed = true → decode t = .op i) : RoundTrips i := by
  intro hwf u hu
  rw [henc, Option.some.injEq] at hu
  exact hu ▸ hdec hwf

theorem roundTrips_of_none {i : Instr} (henc : encode i = none) : RoundTrips i := by
  intro _ u hu
  rw [henc] at hu
  contradiction

/-- Every operation: its line of the encoder against the class of its address; the others have no word. -/
theorem roundTrips (i : Instr) : RoundTrips i := by
  cases i with
  | cmdPrepare => exact roundTrips_of_encode rfl fun _ => decode_cmd true 1#32
  | cmdProcess => exact roundTrips_of_encode rfl fun _ => decode_cmd true 2#32
  | cmdRelease => exact roundTrips_of_encode rfl fun _ => decode_cmd true 3#32
  | illegalCmd d => exact roundTrips_of_encode rfl fun hwf => (decode_cmd true d).trans (decodeCmd_illegal hwf)
  | wrFsLo d => exact roundTrips_of_encode rfl fun _ => decode_portA true 0x0002#16 d
  | wrFsHi d => exact roundTrips_of_encode rfl fun _ => decode_portA true 0x0003#16 d
  | wrMaxBlk d => exact roundTrips_of_encode rfl fun _ => decode_portA true 0x0004#16 d
  | wrNch d => exact roundTrips_of_encode rfl fun _ => decode_portA true 0x0005#16 d
  | wrNumSamp d => exact roundTrips_of_encode rfl fun _ => decode_portA true 0x0006#16 d
  | rdStatus => exact roundTrips_of_encode rfl fun _ => decode_portA false 0x0001#16 0#32
  | rdFsLo => exact roundTrips_of_encode rfl fun _ => decode_portA false 0x0002#16 0#32
  | rdFsHi => exact roundTrips_of_encode rfl fun _ => decode_portA false 0x0003#16 0#32
  | rdMaxBlk => exact roundTrips_of_encode rfl fun _ => decode_portA false 0x0004#16 0#32
  | rdNch => exact roundTrips_of_encode rfl fun _ => decode_portA false 0x0005#16 0#32
  | rdNumSamp => exact roundTrips_of_encode rfl fun _ => decode_portA false 0x0006#16 0#32
  | wrBlk0 idx d => exact roundTrips_of_encode rfl fun _ => decode_blk0 true idx d
  | wrBlk1 idx d => exact roundTrips_of_encode rfl fun _ => decode_blk1 true idx d
  | rdBlk0 idx => exact roundTrips_of_encode rfl fun _ => decode_blk0 false idx 0#32
  | rdBlk1 idx => exact roundTrips_of_encode rfl fun _ => decode_blk1 false idx 0#32
  | setWowDepth d => exact roundTrips_of_encode rfl fun _ => decode_param true 0#3 d
  | setLowCutFreq d => exact roundTrips_of_encode rfl fun _ => decode_param true 1#3 d
  | setLowCutQ d => exact roundTrips_of_encode rfl fun _ => decode_param true 2#3 d
  | setHighCutFreq d => exact roundTrips_of_encode rfl fun _ => decode_param true 3#3 d
  | setHighCutQ d => exact roundTrips_of_encode rfl fun _ => decode_param true 4#3 d
  | setDrive d => exact roundTrips_of_encode rfl fun _ => decode_param true 5#3 d
  | setTone d => exact roundTrips_of_encode rfl fun _ => decode_param true 6#3 d
  | setBypass d => exact roundTrips_of_encode rfl fun _ => decode_param true 7#3 d
  | getParam id => exact roundTrips_of_encode rfl fun _ => decode_param false id 0#32
  | _ => exact roundTrips_of_none rfl

/-- Settles O1: every operation round-trips, whatever its operands hold. -/
theorem decodeOfEncode : Obligations.DecodeOfEncode := fun i t hwf henc => roundTrips i hwf t henc

/-! ### What a word reads as -/

/-- The reserved transactions (R83): outside the addresses of either port, a read of `CMD`, a write of `STATUS`. -/
def ReservedAt (portC write : Bool) (addr : BitVec 16) : Prop :=
  (portC = true ∧ ¬ (0x0010 ≤ addr.toNat ∧ addr.toNat ≤ 0x0017)) ∨
  (portC = false ∧
    (¬ (addr.toNat ≤ 0x0006 ∨ (0x4000 ≤ addr.toNat ∧ addr.toNat ≤ 0x5FFF) ∨
        (0x8000 ≤ addr.toNat ∧ addr.toNat ≤ 0x9FFF)) ∨
      (addr.toNat = 0x0000 ∧ write = false) ∨ (addr.toNat = 0x0001 ∧ write = true)))

theorem reservedAt_of_outsideC {a : BitVec 16} (h : OutsideC a) (w : Bool) : ReservedAt true w a := by
  have hval : (a.extractLsb' 3 13).toNat = a.toNat / 8 % 8192 := by
    simp [BitVec.extractLsb'_toNat, Nat.shiftRight_eq_div_pow]
  have hne : (a.extractLsb' 3 13).toNat ≠ 2 := fun e => h (BitVec.eq_of_toNat_eq e)
  refine .inl ⟨rfl, ?_⟩
  omega

theorem reservedAt_of_outsideA {a : BitVec 16} (h : OutsideA a) (w : Bool) : ReservedAt false w a := by
  obtain ⟨hreg, h0, h1⟩ := h
  have hval : (a.extractLsb' 13 3).toNat = a.toNat / 8192 % 8 := by
    simp [BitVec.extractLsb'_toNat, Nat.shiftRight_eq_div_pow]
  have hne0 : (a.extractLsb' 13 3).toNat ≠ 2 := fun e => h0 (BitVec.eq_of_toNat_eq e)
  have hne1 : (a.extractLsb' 13 3).toNat ≠ 4 := fun e => h1 (BitVec.eq_of_toNat_eq e)
  refine .inr ⟨rfl, .inl ?_⟩
  omega

/-- `i` is the operation of a word with these fields: well formed, issued on the word's port, and with that word as its
own, the data of a read apart. -/
structure Selects (portC write : Bool) (addr : BitVec 16) (data : Word) (i : Instr) : Prop where
  wellFormed : i.wellFormed = true
  encode_eq : encode i = some (TWord.make portC write addr (if write then data else 0#32))
  port_eq : i.port = some (if portC then .c else .a)

/-- What a word with these fields can read as: its own operation, or, where R83 lists it, a reserved transaction of its
own port and direction. -/
inductive ReadsAs (portC write : Bool) (addr : BitVec 16) (data : Word) : Decoded → Prop where
  | op {i : Instr} (free : ¬ ReservedAt portC write addr) (selects : Selects portC write addr data i) :
      ReadsAs portC write addr data (.op i)
  | reserved {d : Decoded} (taken : ReservedAt portC write addr)
      (hd : d = Sys2Proof.reserved (if portC then .c else .a) write) : ReadsAs portC write addr data d

theorem setParam_selects (id : BitVec 3) (d : Word) : Selects true true (paramAddr id) d (setParam id d) := by
  rcases paramId_cases id with rfl | rfl | rfl | rfl | rfl | rfl | rfl | rfl <;> exact ⟨rfl, rfl, rfl⟩

theorem readsAs_param (w : Bool) (id : BitVec 3) (d : Word) :
    ReadsAs true w (paramAddr id) d (.op (if w then setParam id d else .getParam id)) := by
  have hid := id.isLt
  refine .op (by simp [ReservedAt, paramAddr_toNat]; omega) ?_
  cases w
  · exact ⟨rfl, rfl, rfl⟩
  · exact setParam_selects id d

theorem readsAs_cmd (w : Bool) (d : Word) : ReadsAs false w 0x0000#16 d (decodeCmd w d) := by
  cases w
  case false => exact .reserved (.inr ⟨rfl, .inr (.inl ⟨rfl, rfl⟩)⟩) rfl
  case true =>
    have free : ¬ ReservedAt false true 0x0000#16 := by simp [ReservedAt]
    obtain rfl | rfl | rfl | h := cmdData_cases d
    · exact .op free ⟨rfl, rfl, rfl⟩
    · exact .op free ⟨rfl, rfl, rfl⟩
    · exact .op free ⟨rfl, rfl, rfl⟩
    · exact decodeCmd_illegal h ▸ .op free ⟨h, rfl, rfl⟩

theorem readsAs_register (w : Bool) {a : BitVec 16} (d : Word) (h : a ∈ registerAddrs) :
    ReadsAs false w a d (decodeRegister w a d) := by
  rw [mem_registerAddrs] at h
  cases w
  case false =>
    rcases h with rfl | rfl | rfl | rfl | rfl | rfl <;> exact .op (by simp [ReservedAt]) ⟨rfl, rfl, rfl⟩
  case true =>
    rcases h with rfl | h
    · exact .reserved (.inr ⟨rfl, .inr (.inr ⟨rfl, rfl⟩)⟩) rfl
    · rcases h with rfl | rfl | rfl | rfl | rfl <;> exact .op (by simp [ReservedAt]) ⟨rfl, rfl, rfl⟩

theorem readsAs_blk0 (w : Bool) (idx : BitVec 13) (d : Word) :
    ReadsAs false w (blk0Addr idx) d (.op (if w then .wrBlk0 idx d else .rdBlk0 idx)) := by
  have hidx := idx.isLt
  refine .op (by simp [ReservedAt, blk0Addr_toNat]; omega) ?_
  cases w <;> exact ⟨rfl, rfl, rfl⟩

theorem readsAs_blk1 (w : Bool) (idx : BitVec 13) (d : Word) :
    ReadsAs false w (blk1Addr idx) d (.op (if w then .wrBlk1 idx d else .rdBlk1 idx)) := by
  have hidx := idx.isLt
  refine .op (by simp [ReservedAt, blk1Addr_toNat]; omega) ?_
  cases w <;> exact ⟨rfl, rfl, rfl⟩

/-- What the decoder can read from a word, once for every word. -/
theorem decode_readsAs (t : TWord) : ReadsAs t.isPortC t.isWrite t.addr t.data (decode t) := by
  induction t using TWord.by_address with
  | param w id d => simpa [decode_param] using readsAs_param w id d
  | outsideC w a d h => simpa using .reserved (reservedAt_of_outsideC h w) (decode_outsideC w d h)
  | cmd w d => simpa [decode_cmd] using readsAs_cmd w d
  | register w a d h => simpa [decode_register w d h] using readsAs_register w d h
  | blk0 w idx d => simpa [decode_blk0] using readsAs_blk0 w idx d
  | blk1 w idx d => simpa [decode_blk1] using readsAs_blk1 w idx d
  | outsideA w a d h => simpa using .reserved (reservedAt_of_outsideA h w) (decode_outsideA w d h)

/-- An operation that a word decodes to is the word's own. -/
theorem selects_of_decode {t : TWord} {i : Instr} (h : decode t = .op i) :
    Selects t.isPortC t.isWrite t.addr t.data i := by
  have hread := h ▸ decode_readsAs t
  cases hread with
  | op free selects => exact selects
  | reserved taken hd => simpa using (congrArg Decoded.op? hd).trans (op?_reserved _ t.isWrite)

/-- Settles O2: the word of a decoded operation is made of the fields of the word decoded. -/
theorem encodeOfDecode : Obligations.EncodeOfDecode := by
  intro t i h
  obtain ⟨hwf, henc, -⟩ := selects_of_decode h
  refine ⟨hwf, _, henc, TWord.make_isPortC .., TWord.make_isWrite .., TWord.make_addr .., fun hw => ?_⟩
  rw [if_pos hw, t.make_fields]

/-- Settles O4: `ReservedAt` is the statement's list, and what a word reads as says which side of it the word is on. -/
theorem reservedTransactionsAreTheseAddresses : Obligations.ReservedTransactionsAreTheseAddresses := by
  intro t
  change (decode t).op? = none ↔ ReservedAt t.isPortC t.isWrite t.addr
  have hread := decode_readsAs t
  generalize decode t = d at hread ⊢
  cases hread with
  | op free selects => simp [free]
  | reserved taken hd => simp [hd, taken]

/-- Settles O5: a decoded operation is issued on the port of its word. -/
theorem noTransactionSelectsAnInternalOperation : Obligations.NoTransactionSelectsAnInternalOperation := by
  intro t i h
  have hport := (selects_of_decode h).port_eq
  exact ⟨fun hA => by rw [hport, hA]; rfl, fun hC => by rw [hport, hC]; rfl⟩

/-! ### When a row of the table fits (R79) -/

/-- Two words are the same exactly when their fields are. -/
theorem TWord.eq_iff_fields {t v : TWord} : t = v ↔
    t.isPortC = v.isPortC ∧ t.isWrite = v.isWrite ∧ t.addr = v.addr ∧ t.data = v.data := by
  refine ⟨by rintro rfl; simp, fun ⟨hp, hw, ha, hd⟩ => ?_⟩
  rw [← t.make_fields, hp, hw, ha, hd, v.make_fields]

/-- A mask of the port, the direction and some address bits compares those. -/
theorem TWord.and_mask_eq_iff {t v : TWord} {m : BitVec 16} : t &&& .make true true m 0#32 = v ↔
    t.isPortC = v.isPortC ∧ t.isWrite = v.isWrite ∧ t.addr &&& m = v.addr ∧ 0#32 = v.data := by
  have hport : (t &&& .make true true m 0#32).isPortC = t.isPortC := by
    rw [TWord.isPortC, BitVec.getLsbD_and]
    exact (congrArg _ (TWord.make_isPortC ..)).trans (Bool.and_true _)
  have hwrite : (t &&& .make true true m 0#32).isWrite = t.isWrite := by
    rw [TWord.isWrite, BitVec.getLsbD_and]
    exact (congrArg _ (TWord.make_isWrite ..)).trans (Bool.and_true _)
  have haddr : (t &&& .make true true m 0#32).addr = t.addr &&& m :=
    BitVec.extractLsb'_and.trans (congrArg _ (TWord.make_addr ..))
  have hdata : (t &&& .make true true m 0#32).data = 0#32 :=
    BitVec.extractLsb'_and.trans ((congrArg _ (TWord.make_data ..)).trans BitVec.and_zero)
  rw [TWord.eq_iff_fields, hport, hwrite, haddr, hdata]

/-- A mask of ones above zeros compares the upper bits. -/
theorem and_upper_eq_iff {m n : Nat} {x v : BitVec (m + n)} : x &&& (BitVec.allOnes m ++ 0#n) = v ↔
    x.extractLsb' n m = v.extractLsb' n m ∧ v.extractLsb' 0 n = 0#n := by
  have hx : x &&& (BitVec.allOnes m ++ 0#n) = x.extractLsb' n m ++ 0#n :=
    calc x &&& (BitVec.allOnes m ++ 0#n)
        = (x.extractLsb' n m ++ x.extractLsb' 0 n) &&& (BitVec.allOnes m ++ 0#n) := by
          rw [BitVec.extractLsb'_append_extractLsb']
      _ = x.extractLsb' n m ++ 0#n := by rw [BitVec.and_append, BitVec.and_allOnes, BitVec.and_zero]
  rw [hx]
  constructor
  · rintro rfl
    exact ⟨BitVec.extractLsb'_append_eq_left.symm, BitVec.extractLsb'_append_eq_right⟩
  · rintro ⟨hupper, hlower⟩
    rw [hupper, ← hlower, BitVec.extractLsb'_append_extractLsb']

/-- A row of one whole word. -/
@[simp] theorem fits_word {t v : TWord} : t &&& 0x3FFFFFFFFFFFF#50 = v ↔
    t.isPortC = v.getLsbD 49 ∧ t.isWrite = v.getLsbD 48 ∧ t.addr = v.extractLsb' 32 16 ∧
      t.data = v.extractLsb' 0 32 := by
  have hmask : t &&& 0x3FFFFFFFFFFFF#50 = t := BitVec.and_allOnes
  rw [hmask]
  exact TWord.eq_iff_fields

/-- A row of one address. -/
@[simp] theorem fits_address {t v : TWord} : t &&& 0x3FFFF00000000#50 = v ↔
    t.isPortC = v.getLsbD 49 ∧ t.isWrite = v.getLsbD 48 ∧ t.addr = v.extractLsb' 32 16 ∧
      0#32 = v.extractLsb' 0 32 := by
  have hfits := TWord.and_mask_eq_iff (t := t) (v := v) (m := BitVec.allOnes 16)
  rwa [BitVec.and_allOnes] at hfits

/-- A row of a block's addresses. -/
@[simp] theorem fits_block {t v : TWord} : t &&& 0x3E00000000000#50 = v ↔
    t.isPortC = v.getLsbD 49 ∧ t.isWrite = v.getLsbD 48 ∧
      (t.addr.extractLsb' 13 3 = (v.extractLsb' 32 16).extractLsb' 13 3 ∧
        (v.extractLsb' 32 16).extractLsb' 0 13 = 0#13) ∧
      0#32 = v.extractLsb' 0 32 :=
  TWord.and_mask_eq_iff.trans
    (and_congr_right' (and_congr_right' (and_congr_left' (and_upper_eq_iff (m := 3) (n := 13)))))

/-- The row of the parameters' addresses. -/
@[simp] theorem fits_param {t v : TWord} : t &&& 0x3FFF800000000#50 = v ↔
    t.isPortC = v.getLsbD 49 ∧ t.isWrite = v.getLsbD 48 ∧
      (t.addr.extractLsb' 3 13 = (v.extractLsb' 32 16).extractLsb' 3 13 ∧
        (v.extractLsb' 32 16).extractLsb' 0 3 = 0#3) ∧
      0#32 = v.extractLsb' 0 32 :=
  TWord.and_mask_eq_iff.trans
    (and_congr_right' (and_congr_right' (and_congr_left' (and_upper_eq_iff (m := 13) (n := 3)))))

/-! ### What the table reads in each class of addresses -/

/-- The low address bits, where the rows of R79 read them. -/
theorem TWord.make_extract (p w : Bool) (a : BitVec 16) (d : Word) {n : Nat} (h : n ≤ 16) :
    (TWord.make p w a d).extractLsb' 32 n = a.extractLsb' 0 n := by
  have hsub (t : TWord) : t.extractLsb' 32 n = t.addr.extractLsb' 0 n := by
    apply BitVec.eq_of_getLsbD_eq
    intro i hi
    simp [TWord.addr, hi, Nat.lt_of_lt_of_le hi h]
  rw [hsub, TWord.make_addr]

theorem table_param (w : Bool) (id : BitVec 3) (d : Word) :
    decodeByTable (.make true w (paramAddr id) d) = some (if w then setParam id d else .getParam id) := by
  cases w
  case false => simp [decodeByTable, opTable, TWord.make_extract]
  case true =>
    rcases paramId_cases id with rfl | rfl | rfl | rfl | rfl | rfl | rfl | rfl <;>
      simp [decodeByTable, opTable, setParam, paramAddr]

theorem table_outsideC (w : Bool) {a : BitVec 16} (d : Word) (h : OutsideC a) :
    decodeByTable (.make true w a d) = none := by
  have hne (b : BitVec 16) (hb : b.extractLsb' 3 13 = 0x0002#13) : a ≠ b := fun e => h (e ▸ hb)
  unfold OutsideC at h
  simp [decodeByTable, opTable, h, hne]

theorem table_cmd (w : Bool) (d : Word) : decodeByTable (.make false w 0x0000#16 d) = (decodeCmd w d).op? := by
  cases w
  case false => simp [decodeByTable, opTable, decodeCmd, Decoded.op?]
  case true =>
    obtain rfl | rfl | rfl | h := cmdData_cases d
    · simp [decodeByTable, opTable, decodeCmd]
    · simp [decodeByTable, opTable, decodeCmd]
    · simp [decodeByTable, opTable, decodeCmd]
    · obtain ⟨h1, h2, h3⟩ := illegalData_iff.mp h
      simp [decodeByTable, opTable, decodeCmd_illegal h, h1, h2, h3]

theorem table_register (w : Bool) {a : BitVec 16} (d : Word) (h : a ∈ registerAddrs) :
    decodeByTable (.make false w a d) = (decodeRegister w a d).op? := by
  rw [mem_registerAddrs] at h
  cases w
  case false =>
    rcases h with rfl | rfl | rfl | rfl | rfl | rfl <;> simp [decodeByTable, opTable, decodeRegister]
  case true =>
    rcases h with rfl | rfl | rfl | rfl | rfl | rfl <;> simp [decodeByTable, opTable, decodeRegister, Decoded.op?]

theorem table_blk0 (w : Bool) (idx : BitVec 13) (d : Word) :
    decodeByTable (.make false w (blk0Addr idx) d) = some (if w then .wrBlk0 idx d else .rdBlk0 idx) := by
  have hne (b : BitVec 16) (hb : b.extractLsb' 13 3 ≠ 0b010#3) : blk0Addr idx ≠ b := by rintro rfl; simp at hb
  cases w <;> simp [decodeByTable, opTable, TWord.make_extract, hne]

theorem table_blk1 (w : Bool) (idx : BitVec 13) (d : Word) :
    decodeByTable (.make false w (blk1Addr idx) d) = some (if w then .wrBlk1 idx d else .rdBlk1 idx) := by
  have hne (b : BitVec 16) (hb : b.extractLsb' 13 3 ≠ 0b100#3) : blk1Addr idx ≠ b := by rintro rfl; simp at hb
  cases w <;> simp [decodeByTable, opTable, TWord.make_extract, hne]

theorem table_outsideA (w : Bool) {a : BitVec 16} (d : Word) (h : OutsideA a) :
    decodeByTable (.make false w a d) = none := by
  obtain ⟨hreg, h0, h1⟩ := h
  have hne (b : BitVec 16) (hb : b.toNat ≤ 6) : a ≠ b := by rintro rfl; omega
  cases w <;> simp [decodeByTable, opTable, h0, h1, hne]

/-- Settles O3: in every class of addresses the first row that fits builds what the ordered cases read. -/
theorem decodeAgreesWithTheTable : Obligations.DecodeAgreesWithTheTable := by
  intro t
  induction t using TWord.by_address with
  | param w id d => rw [decode_param, op?_op, table_param]
  | outsideC w a d h => rw [decode_outsideC w d h, op?_reserved, table_outsideC w d h]
  | cmd w d => rw [decode_cmd, table_cmd]
  | register w a d h => rw [decode_register w d h, table_register w d h]
  | blk0 w idx d => rw [decode_blk0, op?_op, table_blk0]
  | blk1 w idx d => rw [decode_blk1, op?_op, table_blk1]
  | outsideA w a d h => rw [decode_outsideA w d h, op?_reserved, table_outsideA w d h]

/-- Settles O6: eight closed words, each read by the decoder. -/
theorem wordsDecodeAsWritten : Obligations.WordsDecodeAsWritten := by
  unfold Obligations.WordsDecodeAsWritten
  decide

end Sys2Proof

/-! PROOFS. Family 30_encoding.md: what the step does with a transaction placed at its port, and with a reserved one. -/
namespace Sys2Proof.Machine

set_option Elab.async false

/-! ### A transaction that waits (20_memory.md R56, R58) -/

/-- The audio host moves, and no block runs: whatever its transaction reads as is run. -/
theorem step_audioHost_of_free {s : State} {rest : List Agent} {a : Access} {queue : List Access}
    (hsched : s.schedule = .audioHost :: rest) (hport : s.portA = a :: queue) (hfree : s.lc ≠ .busy) :
    step s = runDecoded (decode (portAWord a)) { s with schedule := rest, portA := queue } := by
  have haccepted : ¬ heldOnA { s with schedule := rest } (decode (portAWord a)) = true :=
    fun hheld => hfree (heldOnA_iff.mp hheld).1
  exact (step_of_schedule hsched).trans (stepAudio_of_accepted hport haccepted)

/-- The control host moves: whatever its transaction reads as is run. -/
theorem step_controlHost {s : State} {rest : List Agent} {a : Access} {queue : List Access}
    (hsched : s.schedule = .controlHost :: rest) (hport : s.portC = a :: queue) :
    step s = runDecoded (decode (portCWord a)) { s with schedule := rest, portC := queue } :=
  (step_of_schedule hsched).trans (stepControl_of_waiting hport)

/-- Settles O10: a reserved transaction is run like any other, and its effect is `runDecoded`'s. -/
theorem reservedAccessesDoNothing : Obligations.ReservedAccessesDoNothing := by
  intro s rest a queue
  refine ⟨fun hsched hport hfree => ?_, fun hsched hport => ?_⟩
  · have hstep := step_audioHost_of_free hsched hport hfree
    exact ⟨fun hdec => hstep.trans (congrArg (runDecoded · _) hdec),
      fun hdec => hstep.trans (congrArg (runDecoded · _) hdec)⟩
  · have hstep := step_controlHost hsched hport
    exact ⟨fun hdec => hstep.trans (congrArg (runDecoded · _) hdec),
      fun hdec => hstep.trans (congrArg (runDecoded · _) hdec)⟩

/-! ### Placing a transaction (log 2) -/

/-- A word is its port bit and the access that waits at that port. -/
theorem portWord_extract (t : TWord) : BitVec.ofBool t.isPortC ++ t.extractLsb' 0 49 = t := by
  have hport : BitVec.ofBool t.isPortC = t.extractLsb' 49 1 := by
    apply BitVec.eq_of_getLsbD_eq
    intro i hi
    obtain rfl : i = 0 := by omega
    simp [TWord.isPortC]
  rw [hport]
  exact BitVec.extractLsb'_append_extractLsb' (w := 1) (len := 49)

/-- A placed operation is run by the next step, on the state it was placed in. -/
theorem step_placeTransaction {t : TWord} {i : Instr} {s : State} (hdec : decode t = .op i)
    (hfree : s.lc ≠ .busy ∨ i = .rdStatus ∨ i.port = some .c) : step (placeTransaction t s) = exec i s := by
  have hword := portWord_extract t
  cases hp : t.isPortC <;> rw [hp] at hword
  case false =>
    have hport : i.port = some .a := (noTransactionSelectsAnInternalOperation t i hdec).1 hp
    have hfree : s.lc ≠ .busy ∨ i = .rdStatus := by simpa [hport] using hfree
    simp only [placeTransaction, hp, Bool.false_eq_true, if_false]
    exact step_audioHost_of_op rfl rfl ((congrArg decode hword).trans hdec) hfree
  case true =>
    simp only [placeTransaction, hp, if_true]
    exact step_controlHost_of_op rfl rfl ((congrArg decode hword).trans hdec)

/-- Settles O8: a word of the table decodes to its operation, and the word placed is that word. -/
theorem placedTransactionIsRunNext : Obligations.PlacedTransactionIsRunNext :=
  fun _ _ _ _ hdec hfree => step_placeTransaction (op?_eq_some.mp hdec) hfree

end Sys2Proof.Machine

/-! PROOFS. Family 40_smoother.md: the next states of the three smoother operations (R91 to R93), and that a smoother at
its target does not move (R92(a)). -/
namespace Sys2Proof.Machine

/-! ### Sums and products with a zero -/

@[simp] theorem F64.exact_posZero : F64.exact posZero = 0 := by decide

/-- Only the two zeros have the exact value 0. -/
theorem F64.mag_eq_zero_of_exact {x : F64} (h : F64.exact x = 0) : F64.mag x = 0 := by
  by_contra hmag
  have hunits := units_pos hmag
  unfold F64.exact at h
  split at h <;> omega

/-- A zero that is not `-0.0` is `+0.0`. -/
theorem eq_posZero_of_mag {x : F64} (hmag : F64.mag x = 0) (hne : x ≠ negZero) : x = posZero := by
  cases hneg : F64.neg? x
  · exact F64.ext_parts hmag hneg
  · exact absurd (F64.ext_parts hmag hneg) hne

/-- Adding `+0.0` leaves every finite number but `-0.0`, whose sum with `+0.0` is `+0.0`. -/
theorem fadd_posZero {x : F64} (hfin : finite x = true) (hne : x ≠ negZero) : fadd x posZero = x := by
  unfold fadd
  simp only [isNaN_of_finite hfin, isInf_of_finite hfin, isNaN_posZero, isInf_of_finite finite_posZero,
    F64.exact_posZero, F64.neg?_posZero, Int.add_zero, Bool.or_self, Bool.and_false, Bool.false_eq_true, if_false]
  split
  next hzero => exact (eq_posZero_of_mag (F64.mag_eq_zero_of_exact hzero) hne).symm
  next hnonzero =>
    refine roundUnits_exact hfin fun hmag => hnonzero ?_
    rw [eq_posZero_of_mag hmag hne, F64.exact_posZero]

/-- A finite number minus itself is `+0.0`, whatever its sign. -/
theorem fsub_self {x : F64} (hfin : finite x = true) : fsub x x = posZero := by
  have hzero : F64.exact x + F64.exact (fneg x) = 0 := by rw [F64.exact_fneg, Int.add_right_neg]
  have hsign : (F64.neg? x && F64.neg? (fneg x)) = false := by rw [F64.neg?_fneg, Bool.and_not_self]
  unfold fsub fadd
  simp only [isNaN_fneg, isInf_fneg, isNaN_of_finite hfin, isInf_of_finite hfin, hzero, hsign, Bool.or_self,
    Bool.false_eq_true, if_false, if_true]

/-- `+0.0` times a finite number without a sign is `+0.0`. -/
theorem posZero_fmul {y : F64} (hfin : finite y = true) (hneg : F64.neg? y = false) : fmul posZero y = posZero := by
  have hunits : F64.units posZero = 0 := by decide
  have hround : nearestMag 52 infMag 0 unitsPerOne = 0 := by decide +kernel
  rw [fmul_nonneg finite_posZero hfin F64.neg?_posZero hneg, hunits, Nat.zero_mul, hround]
  rfl

/-! ### The next states (40_smoother.md R91, R92, R93) -/

@[simp] theorem smoothTick_cur (p : Fin 7) (s : State) :
    (smoothTick p s).dsp.smooth[p].cur = tickValue (widen32 s.holder[targetIndex p]) s.dsp.smooth[p] := by
  simp [smoothTick]

/-- SMOOTH.TICK's next state: the tick, and the value it stored on the wire. -/
theorem exec_smoothTick (p : Fin 7) (s : State) :
    exec (.smoothTick p) s =
      .next ((smoothTick p s).answer (.real (tickValue (widen32 s.holder[targetIndex p]) s.dsp.smooth[p]))) :=
  congrArg (fun v => Host.Outcome.next ((smoothTick p s).answer (.real v))) (smoothTick_cur p s)

/-- SMOOTH.SNAP's next state. -/
theorem exec_smoothSnap (p : Fin 7) (s : State) : exec (.smoothSnap p) s = .next (smoothSnap p s) := rfl

/-- Settles O38: each stated next state is the operation's own, its formula written out. -/
theorem smootherOperationsFollowTheirFormulas : Obligations.SmootherOperationsFollowTheirFormulas :=
  fun s p => ⟨exec_smoothCoef p s, exec_smoothTick p s, exec_smoothSnap p s⟩

/-! ### A smoother at its target (40_smoother.md R92(a)) -/

/-- R92 line 2 with the target reached: the difference is zero, so is its share, and the sum is the value itself. -/
theorem tickValue_of_at_target {m : Smoother} (hcur : finite m.cur = true) (hne : m.cur ≠ negZero)
    (hcoeff : finite m.coeff = true) (hneg : F64.neg? m.coeff = false) : tickValue m.cur m = m.cur := by
  rw [tickValue, fsub_self hcur, posZero_fmul hcoeff hneg, fadd_posZero hcur hne]

/-- A tick that gives the value the smoother has leaves the state. -/
theorem smoothTick_of_tickValue_eq {p : Fin 7} {s : State}
    (h : tickValue (widen32 s.holder[targetIndex p]) s.dsp.smooth[p] = s.dsp.smooth[p].cur) : smoothTick p s = s := by
  have hset : s.dsp.smooth.set p s.dsp.smooth[p] = s.dsp.smooth := Vector.set_getElem_self p.isLt
  rw [smoothTick, h]
  exact congrArg (fun v => { s with dsp := { s.dsp with smooth := v } }) hset

/-- Settles O39: the tick stores the value the smoother has. -/
theorem smootherAtItsTargetStays : Obligations.SmootherAtItsTargetStays := by
  intro s p htarget hcur hne hcoeff hneg
  have htick : tickValue (widen32 s.holder[targetIndex p]) s.dsp.smooth[p] = s.dsp.smooth[p].cur :=
    (congrArg (tickValue · s.dsp.smooth[p]) htarget).trans (tickValue_of_at_target hcur hne hcoeff hneg)
  refine ⟨_, exec_smoothTick p s, ?_⟩
  rw [smoothTick_of_tickValue_eq htick]
  rfl

end Sys2Proof.Machine

/-! PROOFS. Family 41_resonant_filter.md: what the coefficient operations answer (R103 to R106), that a clamped frequency
is usable (R103(a)), the check (R107), the recurrence (R108), the resets (R109, R126), and what BLOCK_START computes from
all of them (R172). -/
namespace Sys2Proof.Machine

/-! ### The order of binary64 -/

theorem flt_iff {x y : F64} : flt x y = true ↔ isNaN x = false ∧ isNaN y = false ∧ F64.key x < F64.key y := by
  simp [flt, and_assoc]

theorem fle_iff {x y : F64} : fle x y = true ↔ isNaN x = false ∧ isNaN y = false ∧ F64.key x ≤ F64.key y := by
  simp [fle, and_assoc]

theorem flt_trans {x y z : F64} (hxy : flt x y = true) (hyz : flt y z = true) : flt x z = true := by
  obtain ⟨nx, -, hxy⟩ := flt_iff.mp hxy
  obtain ⟨-, nz, hyz⟩ := flt_iff.mp hyz
  exact flt_iff.mpr ⟨nx, nz, Int.lt_trans hxy hyz⟩

theorem fle_of_flt {x y : F64} (h : flt x y = true) : fle x y = true := by
  obtain ⟨nx, ny, hlt⟩ := flt_iff.mp h
  exact fle_iff.mpr ⟨nx, ny, Int.le_of_lt hlt⟩

/-- What is above something is no NaN, and so at most itself. -/
theorem fle_self_of_flt {x y : F64} (h : flt y x = true) : fle x x = true := by
  obtain ⟨-, nx, -⟩ := flt_iff.mp h
  exact fle_iff.mpr ⟨nx, nx, Int.le_refl _⟩

/-! ### The coefficient operations (R103 to R106) -/

theorem exec_bqClamp (f q : F64) (s : State) :
    exec (.bqClamp f q) s = .next (s.answer (.pair (clampFreq s.dsp.fs f) (clampQ q))) := rfl

theorem exec_bqCoefLp (f q : F64) (s : State) :
    exec (.bqCoefLp f q) s = .next (s.answer (.raw (coefLp hardwareNum s.dsp.fs f q))) := rfl

theorem exec_bqCoefHp (f q : F64) (s : State) :
    exec (.bqCoefHp f q) s = .next (s.answer (.raw (coefHp hardwareNum s.dsp.fs f q))) := rfl

theorem exec_bqNorm (raw : RawSet) (s : State) : exec (.bqNorm raw) s = .next (s.answer (.coefs (normalise raw))) := rfl

/-- Settles O41: each answer is the operation's own, its formula written out. -/
theorem coefficientOperationsAnswerTheirFormulas : Obligations.CoefficientOperationsAnswerTheirFormulas :=
  fun s f q r => ⟨exec_bqClamp f q s, exec_bqCoefLp f q s, exec_bqCoefHp f q s, exec_bqNorm r s⟩

/-! ### A clamped frequency (R103(a)) -/

/-- Line 2 of R103: at a legal rate the upper clamp is positive, since `0.49` times the least rate is. -/
theorem nyquist_pos {fs : F64} (h : legalFs fs = true) : flt posZero (fmul Config.fNyqFrac fs) = true := by
  obtain ⟨hneg, hfin, hmin, hmax⟩ := legalFs_parts h
  have hlow := mag_fmul_le (c := Config.fNyqFrac) (by decide) (by decide) isFraction_one.finite hfin isFraction_one.1
    hneg hmin
  have hhigh := mag_fmul_le (c := Config.fNyqFrac) (y := Config.fsMax) (by decide) (by decide) hfin (by decide) hneg
    (by decide) hmax
  have hpos : 0 < F64.mag (fmul Config.fNyqFrac one) := by decide +kernel
  have htop : finite (fmul Config.fNyqFrac fs) = true :=
    finite_iff.mpr (Nat.lt_of_le_of_lt hhigh (by decide +kernel))
  rw [flt_nonneg F64.neg?_posZero (neg?_fmul (by decide) hfin (by decide) hneg) isNaN_posZero (isNaN_of_finite htop),
    F64.mag_posZero]
  omega

/-- Line 1 of R103: the lower clamp leaves a positive frequency; a NaN is not above it and becomes it. -/
theorem lowerClamp_pos (f : F64) : flt posZero (if fgt f Config.fMinHz then f else Config.fMinHz) = true := by
  have hmin : flt posZero Config.fMinHz = true := by decide
  split
  · exact flt_trans hmin ‹_›
  · exact hmin

/-- Line 3 of R103: a positive frequency stays where it is below a positive upper clamp, and is that clamp elsewhere. -/
theorem upperClamp_bounds {f1 top f' : F64} (hf' : (if flt f1 top then f1 else top) = f')
    (hf1 : flt posZero f1 = true) (htop : flt posZero top = true) : fgt f' posZero = true ∧ fle f' top = true := by
  subst hf'
  split
  · exact ⟨hf1, fle_of_flt ‹_›⟩
  · exact ⟨htop, fle_self_of_flt htop⟩

/-- R103(a), lines 1 to 3 together. -/
theorem clampFreq_bounds {fs : F64} (h : legalFs fs = true) (f : F64) :
    fgt (clampFreq fs f) posZero = true ∧ fle (clampFreq fs f) (fmul Config.fNyqFrac fs) = true :=
  upperClamp_bounds rfl (lowerClamp_pos f) (nyquist_pos h)

/-- Settles O42: what BQ.CLAMP answers as the frequency is `clampFreq`. -/
theorem clampedFrequencyIsUsable : Obligations.ClampedFrequencyIsUsable :=
  fun s f q hfs => ⟨_, clampFreq s.dsp.fs f, clampQ q, exec_bqClamp f q s, rfl, clampFreq_bounds hfs f⟩

/-! ### The check (R107) -/

theorem Coefs.finite_iff {k : Coefs} :
    Coefs.finite k = true ↔
      Machine.finite k.b0 = true ∧ Machine.finite k.b1 = true ∧ Machine.finite k.b2 = true ∧
        Machine.finite k.a1 = true ∧ Machine.finite k.a2 = true := by
  simp only [Coefs.finite, Bool.and_eq_true, and_assoc]

theorem checked_of_finite {k : Coefs} (h : Coefs.finite k = true) : checked k = k := if_pos h

theorem checked_of_not_finite {k : Coefs} (h : ¬ Coefs.finite k = true) : checked k = unityPass := if_neg h

theorem exec_bqCheck (F : FilterId) (k : Coefs) (s : State) :
    exec (.bqCheck F k) s = .next (s.setCoefs F (checked k)) := rfl

/-- Settles O43: the set BQ.CHECK stores is `checked`, by whether all five members are finite. -/
theorem checkStoresTheSetOrUnityPass : Obligations.CheckStoresTheSetOrUnityPass := by
  intro s F k
  refine ⟨fun hok => ?_, fun hbad => ?_⟩
  · rw [exec_bqCheck, checked_of_finite (Coefs.finite_iff.mpr hok)]
    rfl
  · rw [exec_bqCheck, checked_of_not_finite (mt Coefs.finite_iff.mp hbad)]
    rfl

/-! ### The recurrence (R108) -/

theorem exec_bqStep (F : FilterId) (c : Chan) (x : F64) (s : State) :
    exec (.bqStep F c x) s = .next ((bqStep F c x s).answer (.real (bqOut F c x s))) := rfl

/-- The stepped filter: its coefficients, and channel `c`'s history shifted by the input and the output. -/
@[simp] theorem bqStep_filter_self (F : FilterId) (c : Chan) (x : F64) (s : State) :
    (bqStep F c x s).dsp.filter F =
      ⟨(s.dsp.filter F).k, (s.dsp.filter F).h.set c (((s.dsp.filter F).h.get c).push x (bqOut F c x s))⟩ :=
  Dsp.filter_setFilter _ F _

/-- BQ.STEP leaves the other filters. -/
theorem bqStep_filter_ne {F G : FilterId} (h : G ≠ F) (c : Chan) (x : F64) (s : State) :
    (bqStep F c x s).dsp.filter G = s.dsp.filter G := Dsp.filter_setFilter_ne _ h _

/-- Of the DSP registers BQ.STEP writes its filter. -/
theorem bqStep_dsp (F : FilterId) (c : Chan) (x : F64) (s : State) :
    (bqStep F c x s).dsp = s.dsp.setFilter F ((bqStep F c x s).dsp.filter F) := by
  rw [bqStep_filter_self]
  rfl

/-- Settles O44: the answer is the conditioned sum, and the step writes one history of one filter. -/
theorem biquadStepIsTheDifferenceEquation : Obligations.BiquadStepIsTheDifferenceEquation := by
  intro s F c x k h acc
  refine ⟨_, exec_bqStep F c x s, rfl, settled_cond acc, ?history, ?coefficients, ?channels, ?filters,
    bqStep_dsp F c x s⟩
  case history =>
    rw [State.answer_dsp, bqStep_filter_self, Pair.get_set]
    rfl
  case coefficients => rw [State.answer_dsp, bqStep_filter_self]
  case channels =>
    intro e he
    rw [State.answer_dsp, bqStep_filter_self, Pair.get_set_ne _ _ he]
  case filters => exact fun G hG => bqStep_filter_ne hG c x s

/-! ### The resets (R109, 42_saturation.md R126) -/

theorem exec_bqReset (F : FilterId) (s : State) :
    exec (.bqReset F) s = .next { s with dsp := s.dsp.setFilter F Biquad.resetValue } := rfl

theorem exec_satReset (s : State) : exec .satReset s = .next (s.setSat Saturation.resetValue) := rfl

/-- Settles O45: the stated values are the reset values of a biquad and of the saturation stage. -/
theorem stageResets : Obligations.StageResets := fun s F => ⟨exec_bqReset F s, exec_satReset s⟩

/-! ### BLOCK_START (45_signal_chain.md R172) -/

/-- BLOCK_START where it is enabled. -/
theorem exec_blockStart_enabled {s : State} (hlc : s.lc = .busy) (hphase : s.ctx.phase = .start) :
    exec .blockStart s = .next (blockStart hardwareNum s) := if_pos ⟨hlc, hphase⟩

/-- BLOCK_START without Bypass: every coefficient is recomputed, and the block context set for the first frame. -/
theorem blockStart_of_unbypassed {num : Config.Numerics} {s : State} (h : s.holder[7] ≠ bypassOn) :
    blockStart num s =
      { recompute num s with
        ctx := ⟨s.ctx.nsamp, 0, if 0 < s.ctx.nsamp then .frames else .finish, false⟩ } := if_neg h

/-- Settles O30: without Bypass the new state is `recompute_eq`'s with the block context of the first frame. -/
theorem blockStartComputesEveryCoefficient : Obligations.BlockStartComputesEveryCoefficient := by
  intro s hlc hphase hbypass num fs cur gainDb
  refine ⟨_, exec_blockStart_enabled hlc hphase, ?_⟩
  rw [blockStart_of_unbypassed hbypass, recompute_eq]
  exact ⟨rfl, rfl, rfl⟩

end Sys2Proof.Machine

/-! PROOFS. Family 42_saturation.md: the next states of SAT.SET (R122) and SAT.STEP (R124), and that the gain of a drive
that is a number is from 1 to 10 (R122(a)). -/
namespace Sys2Proof.Machine

/-! ### The next states (42_saturation.md R122, R124) -/

theorem exec_satSet (drv : F64) (s : State) : exec (.satSet drv) s = .next (satSet hardwareNum drv s) := rfl

theorem exec_satStep (c : Chan) (x : F64) (s : State) :
    exec (.satStep c x) s = .next ((satStep hardwareNum c x s).answer (.real (satOut hardwareNum c x s))) := rfl

@[simp] theorem satSet_g (num : Config.Numerics) (drv : F64) (s : State) :
    (satSet num drv s).dsp.sat.g = satGain drv := rfl

/-- Settles O46: the stated next state is SAT.SET's own, `satGain`, `satCorner` and `satAlpha` written out. -/
theorem saturationSetFollowsItsFormulas : Obligations.SaturationSetFollowsItsFormulas := fun s drv => exec_satSet drv s

/-- Settles O48: the stated next state is SAT.STEP's own, `waveshape` and `onePole` written out. -/
theorem saturationStepFollowsItsLines : Obligations.SaturationStepFollowsItsLines := fun s c x => exec_satStep c x s

/-! ### A sum of numbers that are not negative -/

/-- A finite sum of numbers that are not negative, as a pattern. -/
theorem fadd_nonneg {x y : F64} (fx : finite x = true) (fy : finite y = true) (hx : F64.neg? x = false)
    (hy : F64.neg? y = false) : fadd x y = packF64 false (nearestMag 52 infMag (F64.units x + F64.units y) 1) := by
  have hsum : F64.exact x + F64.exact y = ((F64.units x + F64.units y : Nat) : Int) := by
    rw [F64.exact_nonneg hx, F64.exact_nonneg hy, Int.natCast_add]
  rw [fadd_of_exact_nonneg fx fy (.inl hx) (hsum ▸ Int.natCast_nonneg _), hsum, Int.toNat_natCast]

/-- A sum grows with its second term. -/
theorem mag_fadd_le {c x y : F64} (fc : finite c = true) (hc : F64.neg? c = false) (fx : finite x = true)
    (fy : finite y = true) (hx : F64.neg? x = false) (hy : F64.neg? y = false) (h : F64.mag x ≤ F64.mag y) :
    F64.mag (fadd c x) ≤ F64.mag (fadd c y) := by
  rw [fadd_nonneg fc fx hc hx, fadd_nonneg fc fy hc hy, mag_nearest, mag_nearest]
  exact nearestMag_mono Nat.one_pos Nat.one_pos
    (Nat.mul_le_mul_right _ (Nat.add_le_add_left (F64.units_mono h) _))

/-- A sum of numbers that are not negative is not negative. -/
theorem neg?_fadd {x y : F64} (fx : finite x = true) (fy : finite y = true) (hx : F64.neg? x = false)
    (hy : F64.neg? y = false) : F64.neg? (fadd x y) = false := by
  rw [fadd_nonneg fx fy hx hy]
  exact neg?_nearest _ _

/-! ### The clamped drive (42_saturation.md R122 line 1) -/

/-- Numbers are ordered: what is not below is at least. -/
theorem fle_of_not_flt {x y : F64} (nx : isNaN x = false) (ny : isNaN y = false) (h : ¬ flt x y = true) :
    fle y x = true :=
  fle_iff.mpr ⟨ny, nx, Int.not_lt.mp fun hlt => h (flt_iff.mpr ⟨nx, ny, hlt⟩)⟩

/-- What compares as from 0 to 1 is a fraction, or the `-0.0` that compares as 0. -/
theorem isFraction_or_negZero {x : F64} (hlo : fle posZero x = true) (hhi : fle x one = true) :
    IsFraction x ∨ x = negZero := by
  obtain ⟨-, -, hlo⟩ := fle_iff.mp hlo
  obtain ⟨-, -, hhi⟩ := fle_iff.mp hhi
  rw [F64.key_nonneg F64.neg?_posZero, F64.mag_posZero] at hlo
  rw [F64.key_nonneg isFraction_one.1] at hhi
  cases hneg : F64.neg? x
  · rw [F64.key_nonneg hneg] at hhi
    exact .inl ⟨hneg, Int.ofNat_le.mp hhi⟩
  · have hmag : F64.mag x = 0 := by
      simp only [F64.key, hneg, if_true] at hlo
      omega
    exact .inr (F64.ext_parts hmag hneg)

/-- A drive that is a number, an infinity included, is clamped to a fraction; `-0.0` stays. -/
theorem driveOf_cases {drv : F64} (hnan : isNaN drv = false) : IsFraction (driveOf drv) ∨ driveOf drv = negZero := by
  have hone : isNaN one = false := isNaN_of_finite isFraction_one.finite
  unfold driveOf clamp
  split
  next => exact .inl isFraction_posZero
  next hlo =>
    split
    next => exact .inl isFraction_one
    next hhi => exact isFraction_or_negZero (fle_of_not_flt hnan isNaN_posZero hlo) (fle_of_not_flt hone hnan hhi)

/-! ### The gain (42_saturation.md R122 line 2) -/

/-- 10.0, the gain at full drive. -/
def ten : F64 := 0x4024000000000000#64

/-- The product of line 2: of a fraction it is a number from 0 to 9, roundings included. -/
theorem driveSpan_fmul_bounds {d : F64} (h : IsFraction d) :
    finite (fmul Config.driveSpan d) = true ∧ F64.neg? (fmul Config.driveSpan d) = false ∧
      F64.mag (fmul Config.driveSpan d) ≤ F64.mag Config.driveSpan := by
  obtain ⟨hneg, hmag⟩ := h
  have hfin : finite d = true := finite_of_mag_le_oneMag hmag
  have hfull : fmul Config.driveSpan one = Config.driveSpan := by decide +kernel
  have hle := mag_fmul_le (c := Config.driveSpan) (by decide) (by decide) hfin isFraction_one.finite hneg
    isFraction_one.1 hmag
  rw [hfull] at hle
  exact ⟨finite_iff.mpr (Nat.lt_of_le_of_lt hle (by decide)), neg?_fmul (by decide) hfin (by decide) hneg, hle⟩

/-- The sum of line 2: it grows with the product, from `1 + 0 = 1` to `1 + 9 = 10`. -/
theorem one_fadd_bounds {x : F64} (hfin : finite x = true) (hneg : F64.neg? x = false)
    (hle : F64.mag x ≤ F64.mag Config.driveSpan) : fge (fadd one x) one = true ∧ fle (fadd one x) ten = true := by
  have hleast : fadd one posZero = one := fadd_posZero isFraction_one.finite (by decide)
  have hfull : fadd one Config.driveSpan = ten := by decide +kernel
  have hlow := mag_fadd_le isFraction_one.finite isFraction_one.1 finite_posZero hfin F64.neg?_posZero hneg (by simp)
  have hhigh := mag_fadd_le (y := Config.driveSpan) isFraction_one.finite isFraction_one.1 hfin (by decide) hneg
    (by decide) hle
  rw [hleast] at hlow
  rw [hfull] at hhigh
  have sneg := neg?_fadd isFraction_one.finite hfin isFraction_one.1 hneg
  have snan : isNaN (fadd one x) = false := isNaN_of_finite (finite_iff.mpr (Nat.lt_of_le_of_lt hhigh (by decide)))
  exact ⟨(fle_nonneg isFraction_one.1 sneg (by decide) snan).mpr hlow,
    (fle_nonneg sneg (by decide) snan (by decide)).mpr hhigh⟩

/-- R122(a): lines 1 and 2 together. -/
theorem satGain_bounds {drv : F64} (h : isNaN drv = false) :
    fge (satGain drv) one = true ∧ fle (satGain drv) ten = true := by
  unfold satGain
  obtain hfraction | hzero := driveOf_cases h
  · obtain ⟨hfin, hneg, hle⟩ := driveSpan_fmul_bounds hfraction
    exact one_fadd_bounds hfin hneg hle
  · have hgain : fadd one (fmul Config.driveSpan negZero) = one := by decide +kernel
    rw [hzero, hgain]
    decide

/-- Settles O47: the gain SAT.SET stores is `satGain`. -/
theorem saturationGainIsFromOneToTen : Obligations.SaturationGainIsFromOneToTen := by
  intro s drv hnan
  refine ⟨_, exec_satSet drv s, ?_⟩
  rw [satSet_g]
  exact satGain_bounds hnan

end Sys2Proof.Machine

/-! PROOFS. Family 43_tone.md: what the shelf operations answer (R138 to R140), and the two coefficient sets TONE.SET
stores (R137). -/
namespace Sys2Proof.Machine

/-! ### The shelf operations (43_tone.md R138 to R140) -/

theorem exec_shelfPre (f gainDb : F64) (s : State) :
    exec (.shelfPre f gainDb) s = .next (s.answer (.shelf (shelfPre hardwareNum s.dsp.fs f gainDb))) := rfl

theorem exec_shelfCoefLo (f gainDb : F64) (s : State) :
    exec (.shelfCoefLo f gainDb) s = .next (s.answer (.raw (shelfLo hardwareNum s.dsp.fs f gainDb))) := rfl

theorem exec_shelfCoefHi (f gainDb : F64) (s : State) :
    exec (.shelfCoefHi f gainDb) s = .next (s.answer (.raw (shelfHi hardwareNum s.dsp.fs f gainDb))) := rfl

/-- Settles O49: each answer is the operation's own, the lines of `shelfPre` and of the raw sets written out. -/
theorem shelfOperationsAnswerTheirFormulas : Obligations.ShelfOperationsAnswerTheirFormulas :=
  fun s f gainDb => ⟨exec_shelfPre f gainDb s, exec_shelfCoefLo f gainDb s, exec_shelfCoefHi f gainDb s⟩

/-! ### The setter (43_tone.md R137) -/

theorem exec_toneSet (tone : F64) (s : State) : exec (.toneSet tone) s = .next (toneSet hardwareNum tone s) := rfl

/-- The two writes of TONE.SET are to different instances, and the second reads nothing the first has written: both sets
are those of the sample rate and the histories TONE.SET began with. -/
theorem toneSet_eq (num : Config.Numerics) (tone : F64) (s : State) :
    toneSet num tone s = { s with dsp := { s.dsp with
      lsf := ⟨lowShelfSet num s.dsp.fs tone, s.dsp.lsf.h⟩
      hsf := ⟨highShelfSet num s.dsp.fs tone, s.dsp.hsf.h⟩ } } := by
  rw [toneSet_footprint]
  simp only [toneSet, State.setCoefs_dsp, Dsp.setFilter, Dsp.filter]

/-- Settles O50: the stored sets are `lowShelfSet` and `highShelfSet`, `toneGainDb` and its exact negative written out. -/
theorem toneSetStoresBothShelves : Obligations.ToneSetStoresBothShelves := by
  intro s tone gainDb
  rw [exec_toneSet, toneSet_eq]
  rfl

end Sys2Proof.Machine

/-! PROOFS. Family 44_wow.md: the delay line's start (R152, R153), the oscillator's next state (R154), the delay (R155)
and that it is inside the line, and the operations on the line (R156 to R159). -/
namespace Sys2Proof.Machine

-- One theorem after another, as in Tests/Slice0.lean: each waiting kernel check would hold a thread.
set_option Elab.async false

/-! ### The next states -/

theorem exec_wowInit (s : State) : exec .wowInit s = .next (wowInit s) := rfl

theorem exec_wowLfo (s : State) : exec .wowLfo s = .next ((wowLfo s).answer (.real (lfoOut hardwareNum s))) := rfl

theorem exec_wowDelay (lfo : F64) (s : State) :
    exec (.wowDelay lfo) s = .next (s.answer (.delay (wowDelay lfo s).1 (wowDelay lfo s).2)) := rfl

theorem exec_wowRead (c : Chan) (i : Nat) (frac : F64) (s : State) :
    exec (.wowRead c i frac) s = .next (s.answer (.real (wowRead c i frac s))) := rfl

theorem exec_wowWrite (c : Chan) (x : F64) (s : State) : exec (.wowWrite c x) s = .next (wowWrite c x s) := rfl

theorem exec_wowStep (c : Chan) (x : F64) (i : Nat) (frac : F64) (s : State) :
    exec (.wowStep c x i frac) s = .next ((wowWrite c x s).answer (.real (wowRead c i frac s))) := rfl

theorem exec_wowAdvance (s : State) : exec .wowAdvance s = .next (wowAdvance s) := rfl

/-- Settles O53: the stated next state is WOW.LFO's own, `nextPhase` and `lfoOut` written out. -/
theorem oscillatorAdvancesAndWraps : Obligations.OscillatorAdvancesAndWraps := exec_wowLfo

/-- Settles O55: the stated answer is WOW.DELAY's own, `delayMs`, `delaySamples` and `splitDelay` written out. -/
theorem delayFollowsItsLines : Obligations.DelayFollowsItsLines := fun s lfo => exec_wowDelay lfo s

/-! ### WOW.INIT (44_wow.md R153) -/

/-- An element of a delay memory after WOW.INIT. -/
theorem wowInit_readDl (s : State) (c : Chan) (k : Nat) :
    (wowInit s).readDl c k = if k < lineLength s.dsp.fs then posZero else s.readDl c k := by
  cases c
  · exact Memory.read_clearBelow _ _ _
  · exact Memory.read_clearBelow _ _ _

/-- Settles O51: the registers are those WOW.INIT writes, and both memories are cleared below the new length. -/
theorem wowInitSilencesTheDelayLine : Obligations.WowInitSilencesTheDelayLine :=
  fun s => ⟨wowInit s, exec_wowInit s, rfl, rfl, wowInit_readDl s⟩

/-! ### The length of the line (44_wow.md R152) -/

/-- 50 ms in thousandths of an element, at a legal rate: a finite number that is not negative. -/
theorem bufCap_fmul_parts {fs : F64} (h : legalFs fs = true) :
    finite (fmul Config.bufCapMs fs) = true ∧ F64.neg? (fmul Config.bufCapMs fs) = false := by
  obtain ⟨hneg, hfin, -, hmax⟩ := legalFs_parts h
  have hle := mag_fmul_le (c := Config.bufCapMs) (y := Config.fsMax) (by decide) (by decide) hfin (by decide) hneg
    (by decide) hmax
  exact ⟨finite_iff.mpr (Nat.lt_of_le_of_lt hle (by decide +kernel)), neg?_fmul (by decide) hfin (by decide) hneg⟩

/-- 50 ms in elements grow with the legal rate. -/
theorem bufCap_fdiv_mono {x y : F64} (hx : legalFs x = true) (hy : legalFs y = true) (h : F64.mag x ≤ F64.mag y) :
    F64.mag (fdiv (fmul Config.bufCapMs x) thousand) ≤ F64.mag (fdiv (fmul Config.bufCapMs y) thousand) := by
  obtain ⟨xneg, xfin, -⟩ := legalFs_parts hx
  obtain ⟨yneg, yfin, -⟩ := legalFs_parts hy
  obtain ⟨fx, nx⟩ := bufCap_fmul_parts hx
  obtain ⟨fy, ny⟩ := bufCap_fmul_parts hy
  exact mag_fdiv_le (by decide) (by decide) (by decide) fx fy nx ny
    (mag_fmul_le (by decide) (by decide) xfin yfin xneg yneg h)

/-- 50 ms in elements, at a legal rate: a finite number that is not negative. -/
theorem bufCap_fdiv_parts {fs : F64} (h : legalFs fs = true) :
    finite (fdiv (fmul Config.bufCapMs fs) thousand) = true ∧
      F64.neg? (fdiv (fmul Config.bufCapMs fs) thousand) = false := by
  obtain ⟨-, -, -, hmax⟩ := legalFs_parts h
  obtain ⟨hfin, hneg⟩ := bufCap_fmul_parts h
  have hle := bufCap_fdiv_mono h (y := Config.fsMax) (by decide) hmax
  exact ⟨finite_iff.mpr (Nat.lt_of_le_of_lt hle (by decide +kernel)),
    neg?_fdiv hfin (by decide) hneg (by decide) (by decide)⟩

/-- The length of the line grows with the legal rate. -/
theorem lineLength_mono {x y : F64} (hx : legalFs x = true) (hy : legalFs y = true) (h : F64.mag x ≤ F64.mag y) :
    lineLength x ≤ lineLength y := by
  obtain ⟨fx, nx⟩ := bufCap_fdiv_parts hx
  obtain ⟨fy, ny⟩ := bufCap_fdiv_parts hy
  exact Int.toNat_le_toNat (Int.add_le_add_right (ceilF64_mono fx fy nx ny (bufCap_fdiv_mono hx hy h)) 1)

/-- Two elements at the least rate, and so at least two at every legal one. -/
theorem two_le_lineLength {fs : F64} (h : legalFs fs = true) : 2 ≤ lineLength fs := by
  obtain ⟨-, -, hmin, -⟩ := legalFs_parts h
  calc 2 = lineLength one := by decide +kernel
    _ ≤ lineLength fs := lineLength_mono (by decide) h hmin

/-- Settles O52: the upper bound is that of the invariant, the lower one the length at 1 Hz. -/
theorem delayLineLengthIsInRange : Obligations.DelayLineLengthIsInRange :=
  fun _ h => ⟨two_le_lineLength h, (lineLength_bounds h).2⟩

/-! ### The delay line (44_wow.md R156 to R159) -/

/-- The second tap of WOW.READ, one element before the first. -/
theorem tapIndex_succ (wp len i : Nat) : tapIndex wp len (i + 1) = (((wp : Int) - i - 1) % len).toNat := by
  unfold tapIndex
  rw [Int.natCast_add, Int.natCast_one, Int.sub_sub]

/-- What WOW.READ reads. -/
theorem wowRead_eq (c : Chan) (i : Nat) (frac : F64) (s : State) :
    wowRead c i frac s = interpolate (s.readDl c (((s.dsp.wowPtr : Int) - i) % s.dsp.len).toNat)
      (s.readDl c (((s.dsp.wowPtr : Int) - i - 1) % s.dsp.len).toNat) frac := by
  rw [wowRead, tapIndex_succ]
  rfl

/-- A write to a canonical delay memory changes the element it names, of its channel, and no other. -/
theorem readDl_writeDl {s : State} {c : Chan} (h : Memory.wf (s.dl.get c) = true) (a : Nat) (v : F64) (e : Chan)
    (k : Nat) : (s.writeDl c a v).readDl e k = if e = c ∧ k = a then v else s.readDl e k := by
  unfold State.readDl
  rw [State.writeDl_dl]
  by_cases he : e = c
  · subst he
    rw [Pair.get_set]
    by_cases hk : k = a
    · rw [if_pos ⟨rfl, hk⟩, hk, Memory.read_write_same h]
    · rw [if_neg fun both => hk both.2, Memory.read_write_ne hk]
  · rw [if_neg fun both => he both.1, Pair.get_set_ne _ _ he]

/-- What WOW.WRITE leaves to be read. -/
theorem wowWrite_readDl {s : State} (h : memoriesOk s = true) (c : Chan) (x : F64) (e : Chan) (k : Nat) :
    (wowWrite c x s).readDl e k = if e = c ∧ k = s.dsp.wowPtr then x else s.readDl e k := by
  obtain ⟨-, hdl⟩ := memoriesOk_iff.mp h
  obtain ⟨hwf, -⟩ := hdl c
  exact readDl_writeDl hwf s.dsp.wowPtr x e k

/-- Settles O57: WOW.STEP is WOW.WRITE that answers what WOW.READ answers of the state before it. -/
theorem delayLineOperations : Obligations.DelayLineOperations := by
  intro s c x i frac hmem _ p0 p1 a b y
  have hread : wowRead c i frac s = y := wowRead_eq c i frac s
  have hwrite := wowWrite_readDl hmem c x
  refine ⟨?read, ⟨_, exec_wowWrite c x s, rfl, hwrite⟩, ⟨_, exec_wowStep c x i frac s, ?step, hwrite⟩,
    exec_wowAdvance s⟩
  case read =>
    rw [exec_wowRead, hread]
    rfl
  case step =>
    rw [hread]
    rfl

/-! ### Operations on numbers give numbers -/

/-- No pattern up to infinity's is a NaN. -/
theorem isNaN_pack {neg : Bool} {m : Nat} (h : m ≤ infMag) : isNaN (packF64 neg m) = false := by
  rw [isNaN, F64.mag_pack (Nat.lt_of_le_of_lt h infMag_lt)]
  exact decide_eq_false (Nat.not_lt.mpr h)

/-- A product of finite numbers is no NaN. -/
theorem isNaN_fmul_of_finite {x y : F64} (fx : finite x = true) (fy : finite y = true) :
    isNaN (fmul x y) = false := by
  unfold fmul
  simp only [isNaN_of_finite fx, isNaN_of_finite fy, isInf_of_finite fx, isInf_of_finite fy, Bool.or_self,
    Bool.false_eq_true, if_false]
  exact isNaN_pack (nearestMag_le _ _ _ _)

/-- Nor is the product of a number, an infinity included, and a finite one that is not zero. -/
theorem isNaN_fmul {x y : F64} (nx : isNaN x = false) (fy : finite y = true) (hy : F64.mag y ≠ 0) :
    isNaN (fmul x y) = false := by
  by_cases hinf : isInf x = true
  · have hx : F64.mag x ≠ 0 := by
      rw [of_decide_eq_true hinf]
      decide
    have hprod : fmul x y = packF64 (signXor x y) infMag := by
      simp [fmul, nx, isNaN_of_finite fy, hinf, hx, hy]
    rw [hprod]
    exact isNaN_pack (Nat.le_refl _)
  · have fx : finite x = true := by
      simp only [isNaN, isInf, decide_eq_true_eq, decide_eq_false_iff_not] at nx hinf
      exact finite_iff.mpr (by omega)
    exact isNaN_fmul_of_finite fx fy

/-- A number divided by a finite one that is not zero is no NaN. -/
theorem isNaN_fdiv {x y : F64} (nx : isNaN x = false) (fy : finite y = true) (hy : F64.mag y ≠ 0) :
    isNaN (fdiv x y) = false := by
  unfold fdiv
  simp only [nx, isNaN_of_finite fy, isInf_of_finite fy, hy, Bool.or_self, Bool.false_eq_true, if_false]
  split
  · exact isNaN_pack (Nat.le_refl _)
  · exact isNaN_pack (nearestMag_le _ _ _ _)

/-- A finite number plus a number is no NaN. -/
theorem isNaN_fadd {x y : F64} (fx : finite x = true) (ny : isNaN y = false) : isNaN (fadd x y) = false := by
  unfold fadd
  simp only [isNaN_of_finite fx, isInf_of_finite fx, ny, Bool.or_self, Bool.false_eq_true, if_false]
  split
  · exact ny
  · split
    · split <;> decide
    · exact isNaN_pack (nearestMag_le _ _ _ _)

/-- What holds of a value and of both bounds holds of the clamped value. -/
theorem clamp_of_forall {P : F64 → Prop} {v lo hi : F64} (hv : P v) (hlo : P lo) (hhi : P hi) : P (clamp v lo hi) := by
  unfold clamp
  split
  · exact hlo
  · split
    · exact hhi
    · exact hv

/-! ### Integers as binary64 (00_scope.md R12) -/

/-- The magnitude of a significand `m` scaled by `2^k`, from its pattern. -/
theorem unitsOf_scaled {fb k m : Nat} (hlt : m < 2 ^ (fb + 1)) (hlead : k ≠ 0 → 2 ^ fb ≤ m) :
    unitsOf fb (k * 2 ^ fb + m) = m * 2 ^ k := by
  by_cases hsub : m < 2 ^ fb
  · have hk : k = 0 := by
      by_contra hk
      exact absurd (hlead hk) (Nat.not_le.mpr hsub)
    subst hk
    rw [Nat.zero_mul, Nat.zero_add, Nat.pow_zero, Nat.mul_one, unitsOf, if_pos (Nat.div_eq_of_lt hsub)]
  · obtain ⟨r, rfl⟩ := Nat.exists_eq_add_of_le (Nat.not_lt.mp hsub)
    have hr : r < 2 ^ fb := by
      rw [Nat.pow_succ] at hlt
      omega
    have hsplit : k * 2 ^ fb + (2 ^ fb + r) = r + 2 ^ fb * (k + 1) := by ring
    have hpos : 0 < 2 ^ fb := Nat.two_pow_pos fb
    have hdiv : (k * 2 ^ fb + (2 ^ fb + r)) / 2 ^ fb = k + 1 := by
      rw [hsplit, Nat.add_mul_div_left _ _ hpos, Nat.div_eq_of_lt hr, Nat.zero_add]
    have hmod : (k * 2 ^ fb + (2 ^ fb + r)) % 2 ^ fb = r := by
      rw [hsplit, Nat.add_mul_mod_self_left, Nat.mod_eq_of_lt hr]
    rw [unitsOf, hdiv, hmod, if_neg (Nat.succ_ne_zero k), Nat.add_sub_cancel]

/-- A magnitude whose dropped bits are all zero is kept by rounding, where it does not overflow. -/
theorem unitsOf_nearestMag {fb inf n : Nat} (hdvd : 2 ^ excess fb n ∣ n) (hinf : nearestMag fb inf n 1 < inf) :
    unitsOf fb (nearestMag fb inf n 1) = n := by
  have hpos : 0 < 2 ^ excess fb n := Nat.two_pow_pos _
  have hmul : n / 2 ^ excess fb n * 2 ^ excess fb n = n := Nat.div_mul_cancel hdvd
  have hround : roundHalfEven n (2 ^ excess fb n) = n / 2 ^ excess fb n := by
    calc roundHalfEven n (2 ^ excess fb n)
        = roundHalfEven (n / 2 ^ excess fb n * 2 ^ excess fb n) (2 ^ excess fb n) := by rw [hmul]
      _ = n / 2 ^ excess fb n := roundHalfEven_mul _ hpos
  have hpattern : nearestMag fb inf n 1 = excess fb n * 2 ^ fb + n / 2 ^ excess fb n := by
    unfold nearestMag at hinf ⊢
    rw [Nat.div_one, Nat.one_mul, hround] at hinf ⊢
    omega
  rw [hpattern, unitsOf_scaled (div_excess_lt fb n) le_div_excess, hmul]

theorem two_pow_dvd_unitsPerOne {k : Nat} (h : k ≤ 1074) : 2 ^ k ∣ unitsPerOne := by
  unfold unitsPerOne
  exact pow_dvd_pow 2 h

/-- `float(n)` of a natural number, as a pattern. -/
theorem floatOf_natCast (n : Nat) : floatOf n = packF64 false (nearestMag 52 infMag (n * unitsPerOne) 1) := by
  have hcast : (n : Int) * (unitsPerOne : Int) = ((n * unitsPerOne : Nat) : Int) := (Int.natCast_mul _ _).symm
  rw [floatOf, hcast, roundUnits_nonneg (Int.natCast_nonneg _), Int.toNat_natCast]

theorem neg?_floatOf (n : Nat) : F64.neg? (floatOf n) = false := by
  rw [floatOf_natCast]
  exact neg?_nearest _ _

/-- Natural numbers below `2^53` are finite. -/
theorem finite_floatOf {n : Nat} (h : n < 2 ^ 53) : finite (floatOf n) = true := by
  have htop : nearestMag 52 infMag (2 ^ 53 * unitsPerOne) 1 < infMag := by decide +kernel
  rw [floatOf_natCast, finite_iff, mag_nearest]
  refine Nat.lt_of_le_of_lt (nearestMag_mono Nat.one_pos Nat.one_pos ?_) htop
  exact Nat.mul_le_mul_right _ (Nat.mul_le_mul_right _ (Nat.le_of_lt h))

/-- R12: `float(n)` is exact below `2^53`. -/
theorem units_floatOf {n : Nat} (h : n < 2 ^ 53) : F64.units (floatOf n) = n * unitsPerOne := by
  have hfin := finite_floatOf h
  rw [floatOf_natCast, finite_iff, mag_nearest] at hfin
  have hexcess : excess 52 (n * unitsPerOne) ≤ 1074 := by
    have htop : excess 52 (2 ^ 53 * unitsPerOne - 1) = 1074 := by decide +kernel
    rw [← htop]
    refine excess_mono (Nat.le_sub_one_of_lt ?_)
    exact Nat.mul_lt_mul_of_pos_right h unitsPerOne_pos
  have hdvd : 2 ^ excess 52 (n * unitsPerOne) ∣ n * unitsPerOne :=
    Nat.dvd_mul_left_of_dvd (two_pow_dvd_unitsPerOne hexcess) n
  rw [floatOf_natCast, F64.units, mag_nearest]
  exact unitsOf_nearestMag hdvd hfin

/-! ### The integer part and the fraction (44_wow.md R155 lines 7 and 8) -/

/-- The floor of a finite number that is not negative. -/
theorem floorF64_nonneg {d : F64} (hfin : finite d = true) (hneg : F64.neg? d = false) :
    floorF64 d = (F64.units d / unitsPerOne : Nat) := by
  rw [floorF64, if_pos hfin, F64.exact_nonneg hneg, Int.natCast_ediv]

/-- `2^-52` in units: the distance from 1.0 to the next binary64 value. -/
def ulpOfOne : Nat := 2 ^ 1022

theorem ulpOfOne_dvd_unitsPerOne : ulpOfOne ∣ unitsPerOne := two_pow_dvd_unitsPerOne (by decide)

/-- From 1.0 on the binary64 values lie that distance, or a multiple of it, apart. -/
theorem ulpOfOne_dvd_units {d : F64} (h : oneMag ≤ F64.mag d) : ulpOfOne ∣ F64.units d := by
  have hexp : 1023 ≤ F64.mag d / 2 ^ 52 := (Nat.le_div_iff_mul_le (by decide)).mpr h
  have hscale : ulpOfOne ∣ 2 ^ (F64.mag d / 2 ^ 52 - 1) := by
    unfold ulpOfOne
    exact pow_dvd_pow 2 (by omega)
  rw [F64.units, unitsOf, if_neg (by omega)]
  exact Nat.dvd_mul_left_of_dvd hscale _

/-- The fractional part of a number from 1.0 on is at most `1 - 2^-52`, so it rounds to less than 1. -/
theorem nearestMag_fraction_lt {d : F64} (h : oneMag ≤ F64.mag d) :
    nearestMag 52 infMag (F64.units d % unitsPerOne) 1 < oneMag := by
  have hlt := Nat.mod_lt (F64.units d) unitsPerOne_pos
  have hgap : ulpOfOne ∣ unitsPerOne - F64.units d % unitsPerOne :=
    Nat.dvd_sub ulpOfOne_dvd_unitsPerOne ((Nat.dvd_mod_iff ulpOfOne_dvd_unitsPerOne).mpr (ulpOfOne_dvd_units h))
  have hle : F64.units d % unitsPerOne ≤ unitsPerOne - ulpOfOne := by
    have := Nat.le_of_dvd (Nat.sub_pos_of_lt hlt) hgap
    omega
  have hmost : nearestMag 52 infMag (unitsPerOne - ulpOfOne) 1 < oneMag := by decide +kernel
  exact Nat.lt_of_le_of_lt (nearestMag_mono Nat.one_pos Nat.one_pos (Nat.mul_le_mul_right _ hle)) hmost

/-- Line 7: the integer part of a finite number that is not negative. -/
theorem splitDelay_integer {d : F64} (hfin : finite d = true) (hneg : F64.neg? d = false) :
    (splitDelay d).1 = F64.units d / unitsPerOne := by
  rw [splitDelay, floorF64_nonneg hfin hneg, Int.toNat_natCast]

/-- Line 8: what is left of a number from 1.0 on, below `2^53`, is in `[0, 1)`. -/
theorem splitDelay_fraction {d : F64} (hfin : finite d = true) (hneg : F64.neg? d = false)
    (hone : oneMag ≤ F64.mag d) (hmax : F64.units d / unitsPerOne < 2 ^ 53) :
    fge (splitDelay d).2 posZero = true ∧ flt (splitDelay d).2 one = true := by
  have hdiff : F64.exact d + F64.exact (fneg (floatOf (F64.units d / unitsPerOne : Nat))) =
      ((F64.units d % unitsPerOne : Nat) : Int) := by
    have hdm := Nat.div_add_mod' (F64.units d) unitsPerOne
    rw [F64.exact_fneg, F64.exact_nonneg hneg, F64.exact_nonneg (neg?_floatOf _), units_floatOf hmax]
    omega
  have hfrac : (splitDelay d).2 = packF64 false (nearestMag 52 infMag (F64.units d % unitsPerOne) 1) := by
    have hnonneg : 0 ≤ F64.exact d + F64.exact (fneg (floatOf (F64.units d / unitsPerOne : Nat))) := by
      rw [hdiff]
      exact Int.natCast_nonneg _
    have hfloat : finite (fneg (floatOf (F64.units d / unitsPerOne : Nat))) = true := by
      rw [finite_iff, F64.mag_fneg]
      exact finite_iff.mp (finite_floatOf hmax)
    rw [splitDelay, floorF64_nonneg hfin hneg, fsub, fadd_of_exact_nonneg hfin hfloat (.inl hneg) hnonneg, hdiff]
    rfl
  have hlt := nearestMag_fraction_lt hone
  have hpneg := neg?_nearest (F64.units d % unitsPerOne) 1
  have hpnan : isNaN (packF64 false (nearestMag 52 infMag (F64.units d % unitsPerOne) 1)) = false :=
    isNaN_pack (nearestMag_le _ _ _ _)
  rw [hfrac]
  refine ⟨(fle_nonneg F64.neg?_posZero hpneg isNaN_posZero hpnan).mpr (by simp), ?_⟩
  exact (flt_nonneg hpneg isFraction_one.1 hpnan (by decide)).mpr (by rwa [mag_nearest])

/-- Line 7: the integer part of a number from 1 to `n` is from 1 to `n`. -/
theorem floor_units_bounds {d : F64} {n : Nat} (hone : oneMag ≤ F64.mag d) (hle : F64.units d ≤ n * unitsPerOne) :
    1 ≤ F64.units d / unitsPerOne ∧ F64.units d / unitsPerOne ≤ n := by
  have hunits : F64.units one ≤ F64.units d := F64.units_mono hone
  rw [F64.units_one] at hunits
  exact ⟨Nat.div_pos hunits unitsPerOne_pos, Nat.div_le_of_le_mul (hle.trans_eq (Nat.mul_comm _ _))⟩

/-- Lines 7 and 8, for a number from 1 to `n`. -/
theorem splitDelay_bounds {d : F64} {n : Nat} (hn : n < 2 ^ 53) (hlo : fle one d = true)
    (hhi : fle d (floatOf n) = true) :
    1 ≤ (splitDelay d).1 ∧ (splitDelay d).1 ≤ n ∧
      fge (splitDelay d).2 posZero = true ∧ flt (splitDelay d).2 one = true := by
  obtain ⟨hneg, hnan, hone⟩ := pos_of_fge (lo := one) (by decide) (by decide) hlo
  have hlast := finite_floatOf hn
  have hmag := (fle_nonneg hneg (neg?_floatOf n) hnan (isNaN_of_finite hlast)).mp hhi
  have hfin : finite d = true := finite_iff.mpr (Nat.lt_of_le_of_lt hmag (finite_iff.mp hlast))
  have hunits : F64.units d ≤ n * unitsPerOne := units_floatOf hn ▸ F64.units_mono hmag
  obtain ⟨hpos, hle⟩ := floor_units_bounds hone hunits
  rw [splitDelay_integer hfin hneg]
  exact ⟨hpos, hle, splitDelay_fraction hfin hneg hone (Nat.lt_of_le_of_lt hle hn)⟩

/-! ### The delay in samples (44_wow.md R155 lines 1 to 6) -/

/-- The order key is the magnitude with a sign. -/
theorem F64.natAbs_key (x : F64) : (F64.key x).natAbs = F64.mag x := by
  unfold F64.key
  split
  · rw [Int.natAbs_neg, Int.natAbs_natCast]
  · exact Int.natAbs_natCast _

/-- A value in `[-1, 1]` is finite. -/
theorem finite_of_mem_unit_interval {x : F64} (hlo : fge x negOne = true) (hhi : fle x one = true) :
    finite x = true := by
  obtain ⟨-, -, hlo⟩ := fle_iff.mp hlo
  obtain ⟨-, -, hhi⟩ := fle_iff.mp hhi
  have hnegOne : F64.key negOne = -(oneMag : Int) := by decide
  have hone : F64.key one = oneMag := by decide
  have habs := F64.natAbs_key x
  exact finite_of_mag_le_oneMag (by omega)

/-- Lines 1 to 3: the delay in milliseconds is a number. -/
theorem isNaN_delayMs {cur lfo : F64} (hcur : finite cur = true) (hlfo : finite lfo = true) :
    isNaN (delayMs cur lfo) = false := by
  have hdepth : finite (clamp cur posZero one) = true :=
    clamp_of_forall (P := fun v => finite v = true) hcur finite_posZero isFraction_one.finite
  have hmod : isNaN (fmul (fmul lfo (clamp cur posZero one)) Config.maxModMs) = false :=
    isNaN_fmul (isNaN_fmul_of_finite hlfo hdepth) (by decide) (by decide)
  exact clamp_of_forall (P := fun v => isNaN v = false) (isNaN_fadd (by decide) hmod) isNaN_posZero (by decide)

/-- Lines 5 and 6: clamped from below, then from above, a number is between the bounds. -/
theorem raise_then_lower_bounds {v lo hi : F64} (nv : isNaN v = false) (h : fle lo hi = true) :
    let raised := if flt v lo then lo else v
    let d := if fgt raised hi then hi else raised
    fle lo d = true ∧ fle d hi = true := by
  obtain ⟨nlo, nhi, -⟩ := fle_iff.mp h
  have hraised : fle lo (if flt v lo then lo else v) = true := by
    split
    next => exact fle_iff.mpr ⟨nlo, nlo, Int.le_refl _⟩
    next hge => exact fle_of_not_flt nv nlo hge
  obtain ⟨-, nraised, -⟩ := fle_iff.mp hraised
  dsimp only
  generalize (if flt v lo then lo else v) = raised at *
  split
  next => exact ⟨h, fle_iff.mpr ⟨nhi, nhi, Int.le_refl _⟩⟩
  next hle => exact ⟨hraised, fle_of_not_flt nhi nraised hle⟩

/-- 1 sample is at most `n` samples. -/
theorem one_fle_floatOf {n : Nat} (hpos : 1 ≤ n) (hn : n < 2 ^ 53) : fle one (floatOf n) = true := by
  rw [fle_nonneg isFraction_one.1 (neg?_floatOf n) (by decide) (isNaN_of_finite (finite_floatOf hn)), floatOf_natCast,
    mag_nearest]
  calc F64.mag one = nearestMag 52 infMag unitsPerOne 1 := nearestMag_unitsPerOne.symm
    _ ≤ _ := nearestMag_mono Nat.one_pos Nat.one_pos (Nat.mul_le_mul_right _ (Nat.le_mul_of_pos_left _ hpos))

/-- Lines 4 to 6: the delay of a line of `n + 1` elements is from 1 to `n` samples. -/
theorem delaySamples_bounds {fs ms : F64} {n : Nat} (hfs : legalFs fs = true) (hms : isNaN ms = false) (hpos : 1 ≤ n)
    (hn : n < 2 ^ 53) :
    fle one (delaySamples fs (n + 1) ms) = true ∧ fle (delaySamples fs (n + 1) ms) (floatOf n) = true := by
  obtain ⟨-, hfin, hmin, -⟩ := legalFs_parts hfs
  have hne : F64.mag fs ≠ 0 := by
    have : 0 < F64.mag one := by decide
    omega
  have hquot : isNaN (fdiv (fmul ms fs) thousand) = false :=
    isNaN_fdiv (isNaN_fmul hms hfin hne) (by decide) (by decide)
  have hlast : ((n + 1 : Nat) : Int) - 1 = n := by omega
  unfold delaySamples
  rw [hlast]
  exact raise_then_lower_bounds hquot (one_fle_floatOf hpos hn)

/-- Settles O56: at a legal rate the two clamps leave a delay from 1 to `L - 1`, and the split keeps these bounds. -/
theorem delayIsInsideTheLine : Obligations.DelayIsInsideTheLine := by
  intro s lfo hconfig hcur hlo hhi
  obtain ⟨hfs, -, -, hlen, -, -, hmax⟩ := configLegal_iff.mp hconfig
  have hmin : 2 ≤ s.dsp.len := hlen ▸ two_le_lineLength hfs
  obtain ⟨n, hn⟩ : ∃ n, s.dsp.len = n + 1 := Nat.exists_eq_add_one.mpr (by omega)
  have hpos : 1 ≤ n := by omega
  have hsmall : n < 2 ^ 53 := by
    simp only [Config.dlMax] at hmax
    omega
  have hms := isNaN_delayMs hcur (finite_of_mem_unit_interval hlo hhi)
  obtain ⟨hone, hlast⟩ := delaySamples_bounds hfs hms hpos hsmall
  rw [← hn] at hone hlast
  obtain ⟨hi, hin, hfrac⟩ := splitDelay_bounds hsmall hone hlast
  exact ⟨_, _, _, exec_wowDelay lfo s, rfl, hi, hn ▸ Nat.succ_le_succ hin, hfrac⟩

end Sys2Proof.Machine

/-! PROOFS. Family 45_signal_chain.md: the conditioning at the chain's two ends (R180, R181), and the block's first and
last step (R172, R174, R178). -/
namespace Sys2Proof.Machine

/-! ### Magnitudes and zero -/

@[simp] theorem F64.mag_fabs (x : F64) : F64.mag (fabs x) = F64.mag x := by
  unfold F64.mag fabs
  have hmask : (0x7FFFFFFFFFFFFFFF#64).toNat = 2 ^ 63 - 1 := by decide
  rw [BitVec.toNat_and, hmask, Nat.and_two_pow_sub_one_eq_mod]
  exact Nat.mod_mod _ _

@[simp] theorem F64.neg?_fabs (x : F64) : F64.neg? (fabs x) = false := by
  unfold F64.neg? fabs
  rw [BitVec.getLsbD_and, show (0x7FFFFFFFFFFFFFFF#64).getLsbD 63 = false by decide, Bool.and_false]

@[simp] theorem isNaN_fabs (x : F64) : isNaN (fabs x) = isNaN x := by simp [isNaN]

/-- An exact zero rounds to the zero pattern, in either format and whatever the divisor. -/
@[simp] theorem nearestMag_zero (fb inf q : Nat) : nearestMag fb inf 0 q = 0 := by
  simp [nearestMag, excess, roundHalfEven]

/-! ### Settled values (45_signal_chain.md R176, R181) -/

/-- Flushing keeps exactly `+0.0` and what is not below the threshold in magnitude. -/
theorem posZero_or_threshold_le_of_settled {x : F64} (h : settled x = true) :
    finite x = true ∧ (x = posZero ∨ F64.mag Config.flushThreshold ≤ F64.mag x) := by
  have hcond : cond x = x := of_decide_eq_true h
  have hfin : finite x = true := hcond ▸ cond_finite x
  have hflush : flush x = x := by rwa [cond, sanitize, if_pos hfin] at hcond
  have hbelow : flt (fabs x) Config.flushThreshold = true ↔ F64.mag x < F64.mag Config.flushThreshold := by
    rw [flt_nonneg (F64.neg?_fabs x) (by decide) (by rw [isNaN_fabs, isNaN_of_finite hfin]) (by decide), F64.mag_fabs]
  refine ⟨hfin, ?_⟩
  unfold flush at hflush
  split at hflush
  next => exact .inl hflush.symm
  next hnot => exact .inr (Nat.not_lt.mp (mt hbelow.mpr hnot))

/-! ### Rounding to binary32 -/

@[simp] theorem F32.mag_pack {neg : Bool} {m : Nat} (h : m < 0x80000000) : F32.mag (packF32 neg m) = m := by
  unfold F32.mag packF32
  rw [BitVec.toNat_ofNat]
  cases neg <;> simp only [Bool.false_eq_true, if_true, if_false] <;> omega

theorem inf32Mag_lt : inf32Mag < 0x80000000 := by decide

/-- The magnitude of a finite number rounded to binary32. -/
theorem mag_round32 {x : F64} (h : finite x = true) :
    F32.mag (round32 x) = nearestMag 23 inf32Mag (F64.units x) units32 := by
  simp only [round32, isNaN_of_finite h, isInf_of_finite h, Bool.false_eq_true, if_false]
  exact F32.mag_pack (Nat.lt_of_le_of_lt (nearestMag_le _ _ _ _) inf32Mag_lt)

theorem units32_pos : 0 < units32 := by
  rw [units32]
  positivity

/-- The threshold `1e-15` is a normal binary32, well above the subnormals. -/
theorem normal_round32_threshold :
    0x00800000 ≤ nearestMag 23 inf32Mag (F64.units Config.flushThreshold) units32 := by decide +kernel

/-- From the threshold on a magnitude rounds to a normal binary32 or to the infinity. -/
theorem normal_round32 {x : F64} (hfin : finite x = true) (h : F64.mag Config.flushThreshold ≤ F64.mag x) :
    0x00800000 ≤ F32.mag (round32 x) := by
  rw [mag_round32 hfin]
  exact Nat.le_trans normal_round32_threshold
    (nearestMag_mono units32_pos units32_pos (Nat.mul_le_mul_right _ (F64.units_mono h)))

/-! ### OUT.COND (R181) -/

@[simp] theorem outCond_posZero : outCond posZero = 0x00000000#32 := by decide +kernel

/-- OUT.COND of a settled value is a clean word: zero stays zero, what is left rounds to a normal number or overflows,
and an infinity is made zero. -/
theorem cleanSample_outCond {x : F64} (h : settled x = true) : cleanSample (outCond x) = true := by
  obtain ⟨hfin, rfl | hmag⟩ := posZero_or_threshold_le_of_settled h
  · rw [outCond_posZero]
    rfl
  · unfold outCond sanitize32
    split
    next hround => simp [cleanSample, hround, normal_round32 hfin hmag]
    next => rfl

theorem exec_inCond (w : Word) (s : State) : exec (.inCond w) s = .next (s.answer (.real (inCond w))) := rfl

theorem exec_outCond (x : F64) (s : State) : exec (.outCond x) s = .next (s.answer (.word (outCond x))) := rfl

/-- Settles O58: IN.COND's answer is conditioned, and OUT.COND's of a settled value is clean. -/
theorem conditioningCleansBothEnds : Obligations.ConditioningCleansBothEnds :=
  fun s w x => ⟨⟨inCond w, exec_inCond w s, rfl, settled_cond _⟩, outCond x, exec_outCond x s, rfl, cleanSample_outCond⟩

/-! ### The block's first and last step -/

/-- BLOCK_START with Bypass on: the block context is written, and nothing else. -/
theorem blockStart_of_bypassed {num : Config.Numerics} {s : State} (h : s.holder[7] = bypassOn) :
    blockStart num s = { s with ctx := ⟨s.ctx.nsamp, 0, .finish, true⟩ } := if_pos h

/-- Settles O29: BLOCK_START is enabled, and takes its bypassed branch. -/
theorem bypassedBlockStartWritesTheContextOnly : Obligations.BypassedBlockStartWritesTheContextOnly := by
  intro s hlc hphase hbypass
  rw [exec_blockStart_enabled hlc hphase, blockStart_of_bypassed hbypass]

/-- BLOCK_END where it is enabled. -/
theorem exec_blockEnd_enabled {s : State} (hlc : s.lc = .busy) (hphase : s.ctx.phase = .finish) :
    exec .blockEnd s = .next (blockEnd s) := if_pos ⟨hlc, hphase⟩

/-- Settles O32: BLOCK_END is enabled, and gives up the block context. -/
theorem blockEndMakesTheCoreIdle : Obligations.BlockEndMakesTheCoreIdle :=
  fun s hlc hphase => ⟨blockEnd s, exec_blockEnd_enabled hlc hphase, rfl⟩

end Sys2Proof.Machine

/-! PROOFS. FRAME whole (45_signal_chain.md R175): what it makes of each channel's part and of what the channels share. -/
namespace Sys2Proof.Machine

/-! ### One channel's part of a frame -/

/-- A channel's part after a frame that ran it with the wires `w`: histories shifted, `SAT.lp` replaced, the output in
`BLK` at the frame, the input of the delay line at the pointer. -/
def ChannelView.afterFrame (v : ChannelView) (n ptr : Nat) (w : Wires) : ChannelView :=
  { lcf := v.lcf.push w.x0 w.x1, lsf := v.lsf.push w.x2 w.x3, hsf := v.hsf.push w.x3 w.x4, hcf := v.hcf.push w.x4 w.x5
    lp := w.x2, blk := Memory.write v.blk n (outCond w.x6), dl := Memory.write v.dl ptr w.x5 }

theorem channel_frameChannel (num : Config.Numerics) (n i : Nat) (frac : F64) (c : Chan) (s : State) :
    (frameChannel num n i frac c s).channel c =
      (s.channel c).afterFrame n s.dsp.wowPtr (wires num n i frac c s) := by
  rw [frameChannel_eq num s n i frac c rfl]
  simp only [State.channel, ChannelView.afterFrame, Pair.get_set]

theorem channels_nodup (nch : Nat) : (channels nch).Nodup :=
  List.Nodup.sublist (List.take_sublist nch _) (by decide)

/-- Running channels one after another, each once, is for each of them as if it ran alone, and leaves the others. -/
theorem channel_foldl_frameChannel (num : Config.Numerics) (n i : Nat) (frac : F64) (c : Chan) {l : List Chan}
    (hl : l.Nodup) (s : State) :
    (l.foldl (fun s c => frameChannel num n i frac c s) s).channel c =
      if c ∈ l then (s.channel c).afterFrame n s.dsp.wowPtr (wires num n i frac c s) else s.channel c := by
  induction l generalizing s with
  | nil => rfl
  | cons e l ih =>
    obtain ⟨hnotin, hl⟩ := List.nodup_cons.mp hl
    rw [List.foldl_cons, ih hl]
    by_cases hce : c = e
    · subst hce
      rw [if_neg hnotin, if_pos List.mem_cons_self, channel_frameChannel]
    · have hptr : (frameChannel num n i frac e s).dsp.wowPtr = s.dsp.wowPtr :=
        congrArg SharedView.ptr (shared_frameChannel num n i frac e s)
      rw [channel_frameChannel_ne hce, wires_frameChannel_ne num s n i frac hce, hptr]
      simp only [List.mem_cons, hce, false_or]

/-- FRAME makes of an active channel what the channel's own wires say, and leaves an inactive one. The ticks and the
oscillator's advance, which come first, are seen by no wire but through the delay. -/
theorem channel_frame (num : Config.Numerics) (c : Chan) (s : State) :
    (frame num s).channel c =
      if c ∈ channels s.dsp.nch then
        (s.channel c).afterFrame s.ctx.frameIdx s.dsp.wowPtr
          (wires num s.ctx.frameIdx (frameDelay num s).1 (frameDelay num s).2 c s)
      else s.channel c := by
  have hfold := channel_foldl_frameChannel num s.ctx.frameIdx (frameDelay num s).1 (frameDelay num s).2 c
    (channels_nodup s.dsp.nch) (beginFrame s)
  have hptr : (beginFrame s).dsp.wowPtr = s.dsp.wowPtr := by rw [beginFrame_eq s rfl]
  have hnch : (beginFrame s).dsp.nch = s.dsp.nch := by rw [beginFrame_eq s rfl]
  rw [channel_beginFrame, wires_beginFrame, hptr, ← hnch] at hfold
  rw [← hnch]
  exact hfold

/-! ### What the channels share -/

theorem shared_frameChannels (num : Config.Numerics) (n i : Nat) (frac : F64) (s : State) :
    (frameChannels num n i frac s).shared = s.shared := by
  unfold frameChannels
  generalize channels s.dsp.nch = l
  induction l generalizing s with
  | nil => rfl
  | cons c l ih => rw [List.foldl_cons, ih, shared_frameChannel]

theorem shared_beginFrame (s : State) :
    (beginFrame s).shared =
      { s.shared with smooth := (tickAll s).dsp.smooth, phase := nextPhase s.dsp.wowPhase s.dsp.phaseInc } := by
  rw [beginFrame_eq s rfl]
  rfl

/-- Of what the channels share FRAME writes the block context, the smoothers, the phase and the pointer. -/
theorem shared_frame (num : Config.Numerics) (s : State) :
    (frame num s).shared =
      { s.shared with
        ctx := { s.ctx with
          frameIdx := s.ctx.frameIdx + 1
          phase := if s.ctx.frameIdx + 1 = s.ctx.nsamp then .finish else s.ctx.phase }
        smooth := (tickAll s).dsp.smooth
        phase := nextPhase s.dsp.wowPhase s.dsp.phaseInc
        ptr := (s.dsp.wowPtr + 1) % s.dsp.len } := by
  rw [frame, shared_countFrame_wowAdvance, shared_frameChannels, shared_beginFrame]
  rfl

/-- FRAME writes the block context, the DSP state and the block buffers. -/
theorem frame_writes (num : Config.Numerics) (s : State) :
    frame num s = { s with
      dsp := (frame num s).dsp, ctx := (frame num s).ctx, blk := (frame num s).blk, dl := (frame num s).dl } := by
  obtain ⟨_, _, _, _, _, _, _, _, _, hframe⟩ := frame_footprint num s
  rw [hframe]

theorem frame_maxBlk (num : Config.Numerics) (s : State) : (frame num s).dsp.maxBlk = s.dsp.maxBlk := by
  obtain ⟨_, _, _, _, _, _, _, _, _, hframe⟩ := frame_footprint num s
  rw [hframe]

/-! ### The elements of the memories -/

/-- A write to a canonical memory, read back anywhere. -/
theorem Memory.read_write {w : Nat} {m : Memory w} (h : Memory.wf m = true) (n a : Nat) (v : BitVec w) :
    Memory.read (Memory.write m n v) a = if a = n then v else Memory.read m a := by
  split
  next heq => rw [heq, Memory.read_write_same h]
  next hne => exact Memory.read_write_ne hne m v

/-- FRAME writes `BLK` of the active channels at the frame index alone. -/
theorem frame_readBlk (num : Config.Numerics) {s : State} (hmem : memoriesOk s = true) (c : Chan) (a : Nat) :
    (frame num s).readBlk c a =
      if c ∈ channels s.dsp.nch ∧ a = s.ctx.frameIdx then
        outCond (wires num s.ctx.frameIdx (frameDelay num s).1 (frameDelay num s).2 c s).x6
      else s.readBlk c a := by
  obtain ⟨hblk, -⟩ := memoriesOk_iff.mp hmem
  have hview := congrArg (fun v => Memory.read v.blk a) (channel_frame num c s)
  refine hview.trans ?_
  by_cases hc : c ∈ channels s.dsp.nch
  · simp only [hc, if_true, true_and]
    exact Memory.read_write (hblk c).1 _ _ _
  · simp only [hc, if_false, false_and]
    rfl

/-- FRAME writes `DL` of the active channels at the pointer alone. -/
theorem frame_readDl (num : Config.Numerics) {s : State} (hmem : memoriesOk s = true) (c : Chan) (a : Nat) :
    (frame num s).readDl c a =
      if c ∈ channels s.dsp.nch ∧ a = s.dsp.wowPtr then
        (wires num s.ctx.frameIdx (frameDelay num s).1 (frameDelay num s).2 c s).x5
      else s.readDl c a := by
  obtain ⟨-, hdl⟩ := memoriesOk_iff.mp hmem
  have hview := congrArg (fun v => Memory.read v.dl a) (channel_frame num c s)
  refine hview.trans ?_
  by_cases hc : c ∈ channels s.dsp.nch
  · simp only [hc, if_true, true_and]
    exact Memory.read_write (hdl c).1 _ _ _
  · simp only [hc, if_false, false_and]
    rfl

/-- Settles O31: the shared fields are those of `shared_frame`, a channel's those of `channel_frame`, and the elements of
both memories those the one write of an active channel leaves. -/
theorem frameRunsTheChainOnce : Obligations.FrameRunsTheChainOnce := by
  intro s hmem hlc hphase _ n depth d w
  have hdelay : frameDelay hardwareNum s = d := frameDelay_eq hardwareNum s
  have hblk := frame_readBlk hardwareNum hmem
  have hdl := frame_readDl hardwareNum hmem
  rw [hdelay] at hblk hdl
  have hshared := shared_frame hardwareNum s
  simp only [State.shared, SharedView.mk.injEq, hphase] at hshared
  obtain ⟨-, hctx, hfs, hnch, hlen, hinc, hsmooth, hlcf, hlsf, hhsf, hhcf, hg, hnorm, halp, hph, hptr⟩ := hshared
  refine ⟨_, exec_frame_enabled hlc hphase, frame_writes _ s, hctx, ?smoothers, hph, hptr, hfs, frame_maxBlk _ s, hnch,
    hlen, hinc, fun | .lcf => hlcf | .lsf => hlsf | .hsf => hhsf | .hcf => hhcf, hg, hnorm, halp, ?active, ?inactive,
    hblk, hdl⟩
  case smoothers =>
    intro p
    have htick : (frame hardwareNum s).dsp.smooth[p] = _ :=
      (congrArg (fun v : Vector Smoother 7 => v[p]) hsmooth).trans (tickAll_smooth s p)
    exact ⟨congrArg Smoother.cur htick, (congrArg Smoother.coeff htick :)⟩
  case active =>
    intro c hc
    have hview := channel_frame hardwareNum c s
    rw [if_pos hc, hdelay] at hview
    simp only [State.channel, ChannelView.afterFrame, ChannelView.mk.injEq] at hview
    obtain ⟨hl, hls, hhs, hh, hlp, -, -⟩ := hview
    exact ⟨hl, hlp, hls, hhs, hh⟩
  case inactive =>
    intro c hc
    rw [channel_frame, if_neg hc]

/-! ### Identical channels (R177) -/

/-- The wires depend on the channel only through what it holds. -/
theorem wires_of_channel_eq {c e : Chan} {s : State} (h : s.channel c = s.channel e) (num : Config.Numerics)
    (n i : Nat) (frac : F64) : wires num n i frac c s = wires num n i frac e s := by
  simp only [State.channel, ChannelView.mk.injEq] at h
  simp only [wires, State.readBlk, State.readDl, h]

/-- Settles O36: both channels are active, and what FRAME makes of each depends on what it holds alone. -/
theorem identicalChannelsStayIdentical : Obligations.IdenticalChannelsStayIdentical := by
  intro s hlc hphase hnch hsame
  have hactive (c : Chan) : c ∈ channels s.dsp.nch := by rw [hnch]; cases c <;> decide
  refine ⟨_, exec_frame_enabled hlc hphase, ?_⟩
  rw [channel_frame, channel_frame, if_pos (hactive .c0), if_pos (hactive .c1), hsame, wires_of_channel_eq hsame]

end Sys2Proof.Machine

/-! PROOFS. Silence (45_signal_chain.md R183): through every stage a zero stays a zero, or becomes a NaN that conditioning
makes a zero, whatever the coefficients are. -/
namespace Sys2Proof.Machine

/-! ### What conditioning makes `+0.0` of -/

/-- A zero of either sign or a NaN: all that arithmetic can make of zeros and any other operands. -/
def Vanishes (x : F64) : Prop := isNaN x = true ∨ F64.mag x = 0

theorem vanishes_posZero : Vanishes posZero := .inr F64.mag_posZero

theorem vanishes_nanF64 (op : Nat) (x y : F64) : Vanishes (nanF64 op x y) := .inl (isNaN_nanF64 op x y)

theorem vanishes_pack_zero (neg : Bool) : Vanishes (packF64 neg 0) := .inr (F64.mag_pack (by decide))

/-- What vanishes and is no NaN is a finite zero. -/
theorem Vanishes.zero {x : F64} (h : Vanishes x) (hnan : isNaN x = false) : F64.mag x = 0 :=
  h.resolve_left (by simp [hnan])

theorem isInf_of_mag_zero {x : F64} (h : F64.mag x = 0) : isInf x = false := by
  rw [isInf, h]
  decide

theorem units_of_mag_zero {x : F64} (h : F64.mag x = 0) : F64.units x = 0 := by simp [F64.units, unitsOf, h]

theorem exact_of_mag_zero {x : F64} (h : F64.mag x = 0) : F64.exact x = 0 := by simp [F64.exact, units_of_mag_zero h]

theorem Vanishes.fneg {x : F64} (h : Vanishes x) : Vanishes (fneg x) := by
  unfold Vanishes
  rwa [isNaN_fneg, F64.mag_fneg]

/-- A sum of zeros is a zero. -/
theorem Vanishes.fadd {x y : F64} (hx : Vanishes x) (hy : Vanishes y) : Vanishes (fadd x y) := by
  unfold Machine.fadd
  split
  next => exact vanishes_nanF64 _ _ _
  next hnan =>
    obtain ⟨nx, ny⟩ : isNaN x = false ∧ isNaN y = false := by simpa using hnan
    have zx := hx.zero nx
    have zy := hy.zero ny
    simp only [isInf_of_mag_zero zx, isInf_of_mag_zero zy, exact_of_mag_zero zx, exact_of_mag_zero zy, Int.add_zero,
      Bool.false_eq_true, if_false, if_true]
    split
    · exact .inr (by decide)
    · exact vanishes_posZero

theorem Vanishes.fsub {x y : F64} (hx : Vanishes x) (hy : Vanishes y) : Vanishes (fsub x y) := hx.fadd hy.fneg

/-- A zero times anything is a zero, or of an infinity or a NaN a NaN. -/
theorem vanishes_fmul {x y : F64} (h : Vanishes x ∨ Vanishes y) : Vanishes (fmul x y) := by
  unfold fmul
  split
  next => exact vanishes_nanF64 _ _ _
  next hnan =>
    obtain ⟨nx, ny⟩ : isNaN x = false ∧ isNaN y = false := by simpa using hnan
    have hzero : F64.mag x = 0 ∨ F64.mag y = 0 := h.imp (·.zero nx) (·.zero ny)
    have hprod : F64.units x * F64.units y = 0 :=
      Nat.mul_eq_zero.mpr (hzero.imp units_of_mag_zero units_of_mag_zero)
    split
    · exact vanishes_nanF64 _ _ _
    · rw [hprod, nearestMag_zero]
      exact vanishes_pack_zero _

theorem Vanishes.fmul_left {x : F64} (h : Vanishes x) (y : F64) : Vanishes (fmul x y) := vanishes_fmul (.inl h)

theorem Vanishes.fmul_right {y : F64} (h : Vanishes y) (x : F64) : Vanishes (fmul x y) := vanishes_fmul (.inr h)

/-- A zero divided by anything is a zero, or by a zero or a NaN a NaN. -/
theorem Vanishes.fdiv {x : F64} (h : Vanishes x) (y : F64) : Vanishes (fdiv x y) := by
  unfold Machine.fdiv
  split
  next => exact vanishes_nanF64 _ _ _
  next hnan =>
    obtain ⟨nx, -⟩ : isNaN x = false ∧ isNaN y = false := by simpa using hnan
    have zx := h.zero nx
    simp only [isInf_of_mag_zero zx, zx, units_of_mag_zero zx, Nat.zero_mul, nearestMag_zero, Bool.false_eq_true, if_false,
      if_true]
    split
    · exact vanishes_pack_zero _
    · split
      · exact vanishes_nanF64 _ _ _
      · exact vanishes_pack_zero _

/-- R14(b), (e): `tanh` keeps a zero, and answers a NaN of a NaN. -/
theorem Vanishes.numTanh {x : F64} (h : Vanishes x) : Vanishes (numTanh x) := by
  unfold Machine.numTanh
  split
  next => exact vanishes_nanF64 _ _ _
  next hnan =>
    have zx := h.zero (by simpa using hnan)
    rw [if_pos zx]
    exact .inr zx

theorem Vanishes.flush {x : F64} (h : Vanishes x) : Vanishes (flush x) := by
  unfold Machine.flush
  split
  · exact vanishes_posZero
  · exact h

/-- Conditioning makes `+0.0` of it: of a NaN by sanitizing, of a zero by flushing. -/
theorem Vanishes.cond {x : F64} (h : Vanishes x) : cond x = posZero := by
  obtain hnan | hzero := h
  · exact cond_nan hnan
  · have hfin : finite x = true := finite_of_mag_le_oneMag (by omega)
    have habs : fabs x = posZero := F64.ext_parts (by simp [hzero]) (by simp)
    have hbelow : flt posZero Config.flushThreshold = true := by decide
    rw [Machine.cond, sanitize, if_pos hfin, Machine.flush, habs, if_pos hbelow]

/-! ### The stages -/

/-- A biquad of any coefficients answers `+0.0` to `+0.0` when its history is zero (R108). -/
theorem biquadOut_silent (k : Coefs) : biquadOut k Hist.zero posZero = posZero := by
  have hterm (b : F64) : Vanishes (fmul b posZero) := vanishes_posZero.fmul_right b
  exact ((((hterm _).fadd (hterm _)).fadd (hterm _)).fsub (hterm _) |>.fsub (hterm _)).cond

/-- The waveshaper makes nothing of `+0.0`, whatever the gain and the norm (R124 lines 1 to 5). -/
theorem vanishes_waveshape (g norm : F64) : Vanishes (waveshape hardwareNum g norm posZero) := by
  have hv := (vanishes_posZero.fmul_left g).flush.numTanh.flush
  unfold waveshape
  dsimp only
  split
  · exact (hv.fdiv norm).flush
  · exact hv

/-- The one-pole low-pass at rest stays at rest (R124 lines 7 to 10). -/
theorem onePole_silent (alp : F64) {v : F64} (h : Vanishes v) : onePole alp posZero v = posZero :=
  (vanishes_posZero.fadd ((h.fsub vanishes_posZero).flush.fmul_right alp).flush).flush.cond

/-- Between two zeros the interpolation is zero (44_wow.md R157). -/
theorem interpolate_silent (frac : F64) : interpolate posZero posZero frac = posZero :=
  (vanishes_posZero.fadd ((vanishes_posZero.fsub vanishes_posZero).fmul_right frac)).cond

/-! ### The channel -/

/-- A channel's part that holds nothing but `+0.0` below element `len` of its delay line. -/
structure ChannelView.Silent (v : ChannelView) (len : Nat) : Prop where
  lcf : v.lcf = Hist.zero
  lsf : v.lsf = Hist.zero
  hsf : v.hsf = Hist.zero
  hcf : v.hcf = Hist.zero
  lp : v.lp = posZero
  dl : ∀ e ∈ v.dl, len ≤ e.1

theorem silentChannel_iff {c : Chan} {s : State} : silentChannel c s = true ↔ (s.channel c).Silent s.dsp.len := by
  simp only [silentChannel, silentHist, Bool.and_eq_true, decide_eq_true_eq, List.all_eq_true, and_assoc]
  exact ⟨fun ⟨hlcf, hlsf, hhsf, hhcf, hlp, hdl⟩ => ⟨hlcf, hlsf, hhsf, hhcf, hlp, hdl⟩,
    fun ⟨hlcf, hlsf, hhsf, hhcf, hlp, hdl⟩ => ⟨hlcf, hlsf, hhsf, hhcf, hlp, hdl⟩⟩

/-- The wires of a frame of silence. -/
def Wires.silent : Wires := ⟨posZero, posZero, posZero, posZero, posZero, posZero, posZero⟩

theorem tapIndex_lt (wp k : Nat) {len : Nat} (h : 0 < len) : tapIndex wp len k < len := by
  have hpos : (0 : Int) < len := Int.natCast_pos.mpr h
  have hnonneg := Int.emod_nonneg ((wp : Int) - k) hpos.ne'
  have hlt := Int.emod_lt_of_pos ((wp : Int) - k) hpos
  unfold tapIndex
  omega

/-- In a silent delay line both taps read `+0.0`. -/
theorem readDl_silent {c : Chan} {s : State} (h : (s.channel c).Silent s.dsp.len) {k : Nat} (hk : k < s.dsp.len) :
    s.readDl c k = posZero :=
  Memory.read_below fun e he => Nat.lt_of_lt_of_le hk (h.dl e he)

/-- A silent channel fed silence has silent wires: each stage answers zero to the zero of the stage before it. -/
theorem wires_silent {c : Chan} {s : State} (h : (s.channel c).Silent s.dsp.len) (hlen : 0 < s.dsp.len) {n : Nat}
    (hin : inCond (s.readBlk c n) = posZero) (i : Nat) (frac : F64) :
    wires hardwareNum n i frac c s = Wires.silent := by
  have hlcf : s.dsp.lcf.h.get c = Hist.zero := h.lcf
  have hlsf : s.dsp.lsf.h.get c = Hist.zero := h.lsf
  have hhsf : s.dsp.hsf.h.get c = Hist.zero := h.hsf
  have hhcf : s.dsp.hcf.h.get c = Hist.zero := h.hcf
  have hlp : s.dsp.sat.lp.get c = posZero := h.lp
  have hx0 : cond (widen32 (s.readBlk c n)) = posZero := hin
  have hsat := onePole_silent s.dsp.sat.alp (vanishes_waveshape s.dsp.sat.g s.dsp.sat.norm)
  simp only [wires, hx0, hlcf, hlsf, hhsf, hhcf, hlp, biquadOut_silent, hsat, readDl_silent h (tapIndex_lt _ _ hlen),
    interpolate_silent, Wires.silent]

/-- Zeros shifted into a history of zeros. -/
theorem Hist.push_silent {h : Hist} (hzero : h = Hist.zero) : h.push posZero posZero = Hist.zero := by
  rw [hzero]
  rfl

/-- Writing `+0.0` lists no element of the delay line anew. -/
theorem Memory.forall_write_default {w : Nat} {P : Nat × BitVec w → Prop} {m : Memory w} (h : ∀ e ∈ m, P e) (a : Nat) :
    ∀ e ∈ Memory.write m a (Memory.default w), P e := by
  induction m with
  | nil => simp [Memory.write, Memory.cons]
  | cons e m ih =>
    obtain ⟨he, hm⟩ := List.forall_mem_cons.mp h
    obtain ⟨b, u⟩ := e
    unfold Memory.write
    split
    · simpa [Memory.cons] using h
    · split
      · simpa [Memory.cons] using hm
      · exact List.forall_mem_cons.mpr ⟨he, ih hm⟩

/-- A silent part stays silent in a frame of silence, wherever its delay line is written. -/
theorem ChannelView.Silent.afterFrame {v : ChannelView} {len : Nat} (h : v.Silent len) (n ptr : Nat) :
    (v.afterFrame n ptr Wires.silent).Silent len where
  lcf := Hist.push_silent h.lcf
  lsf := Hist.push_silent h.lsf
  hsf := Hist.push_silent h.hsf
  hcf := Hist.push_silent h.hcf
  lp := rfl
  dl := Memory.forall_write_default h.dl ptr

/-- Settles O37: the wires of the frame are silent, so the channel's part stays silent and OUT.COND's word is zero. -/
theorem silenceStaysSilent : Obligations.SilenceStaysSilent := by
  intro s c hmem hlc hphase hptr hc hsilent hin
  have hchannel := silentChannel_iff.mp hsilent
  have hwires := wires_silent hchannel (Nat.zero_lt_of_lt hptr) hin
  have hlen : (frame hardwareNum s).dsp.len = s.dsp.len := congrArg SharedView.len (shared_frame hardwareNum s)
  refine ⟨_, exec_frame_enabled hlc hphase, silentChannel_iff.mpr ?_, ?_⟩
  · rw [channel_frame, if_pos hc, hwires, hlen]
    exact hchannel.afterFrame _ _
  · rw [frame_readBlk hardwareNum hmem, if_pos ⟨hc, rfl⟩, hwires]
    exact outCond_posZero

end Sys2Proof.Machine

/-! PROOFS. A block with no host moving, step by step (45_signal_chain.md R178, R200; 70_reset_and_hazards.md R272): the
empty schedule leaves the sequencer to move (log 1), and each frame is one step. -/
namespace Sys2Proof.Machine

/-! ### Runs -/

/-- A step at the start of a run. -/
theorem run_succ_of_step {M : Host.Core} {s u : M.State} (h : M.step s = .next u) (k : Nat) :
    M.run (k + 1) s = M.run k u := by
  simp only [Host.Core.run, h]

/-- A step at the end of a run. -/
theorem run_succ_of_run {M : Host.Core} {k : Nat} {s u v : M.State} (hrun : M.run k s = .next u)
    (hstep : M.step u = .next v) : M.run (k + 1) s = .next v := by
  induction k generalizing s with
  | zero =>
    obtain rfl : s = u := Host.Outcome.next.inj hrun
    exact run_succ_of_step hstep 0
  | succ k ih =>
    cases hs : M.step s with
    | next s' =>
      rw [run_succ_of_step hs] at hrun ⊢
      exact ih hrun
    | fault | refused =>
      simp only [Host.Core.run, hs] at hrun
      cases hrun

/-- With nothing scheduled, the sequencer moves while a block runs (log 1). -/
theorem step_of_unscheduled_busy {s : State} (hsched : s.schedule = []) (busy : s.lc = .busy) :
    step s = exec (enabledStep s.ctx.phase) s := by
  have hagent : chosenAgent s = .sequencer := by simp [chosenAgent, hsched, busy]
  have hstate : { s with schedule := s.schedule.tail } = s := by
    rw [hsched, List.tail_nil, ← hsched]
  rw [step_eq, hagent, hstate]
  exact stepSequencer_of_busy busy

theorem step_blockStart {s : State} (hsched : s.schedule = []) (busy : s.lc = .busy) (hphase : s.ctx.phase = .start) :
    step s = .next (blockStart hardwareNum s) := by
  rw [step_of_unscheduled_busy hsched busy, hphase]
  exact exec_blockStart_enabled busy hphase

theorem step_frame {s : State} (hsched : s.schedule = []) (busy : s.lc = .busy) (hphase : s.ctx.phase = .frames) :
    step s = .next (frame hardwareNum s) := by
  rw [step_of_unscheduled_busy hsched busy, hphase]
  exact exec_frame_enabled busy hphase

theorem step_blockEnd {s : State} (hsched : s.schedule = []) (busy : s.lc = .busy) (hphase : s.ctx.phase = .finish) :
    step s = .next (blockEnd s) := by
  rw [step_of_unscheduled_busy hsched busy, hphase]
  exact exec_blockEnd_enabled busy hphase

/-! ### A bypassed block (R174) -/

/-- Settles O34: BLOCK_START goes to END at once, and BLOCK_END follows. -/
theorem bypassedBlockPassesThrough : Obligations.BypassedBlockPassesThrough := by
  intro s busy hphase hsched hbypass
  have hstart := step_blockStart hsched busy hphase
  rw [blockStart_of_bypassed hbypass] at hstart
  exact ⟨⟨_, hstart, busy⟩, _, run_succ_of_run (run_succ_of_run rfl hstart) (step_blockEnd hsched busy rfl), rfl⟩

/-! ### A block that is not bypassed -/

/-- `t` differs from `s` in the block context, the DSP state and the block buffers only. -/
def SameOutsideBlock (s t : State) : Prop := t = { s with ctx := t.ctx, dsp := t.dsp, blk := t.blk, dl := t.dl }

theorem SameOutsideBlock.trans {s t u : State} (hst : SameOutsideBlock s t) (htu : SameOutsideBlock t u) :
    SameOutsideBlock s u := by
  unfold SameOutsideBlock at *
  refine htu.trans ?_
  clear htu
  generalize t.ctx = ctx, t.dsp = dsp, t.blk = blk, t.dl = dl at hst
  rw [hst]

/-- Where the block begun in `s` stands in `u`, when `k` of its frames have been processed. -/
structure BlockProgress (s : State) (k : Nat) (u : State) : Prop where
  invariant : MachineInvariant u
  busy : u.lc = .busy
  unscheduled : u.schedule = []
  ctx : u.ctx = ⟨s.ctx.nsamp, k, if k < s.ctx.nsamp then .frames else .finish, false⟩
  active : channels u.dsp.nch = channels s.dsp.nch
  clean : ∀ c ∈ channels s.dsp.nch, ∀ n < k, cleanSample (u.readBlk c n) = true
  others : ∀ (c : Chan) (a : Nat), c ∉ channels s.dsp.nch ∨ k ≤ a → u.readBlk c a = s.readBlk c a
  same : SameOutsideBlock s u

/-- BLOCK_START without Bypass begins the block at frame 0 with no sample touched. -/
theorem BlockProgress.of_blockStart {s : State} (h : MachineInvariant s) (busy : s.lc = .busy)
    (hphase : s.ctx.phase = .start) (hsched : s.schedule = []) (hbypass : s.holder[7] ≠ bypassOn) :
    step s = .next (blockStart hardwareNum s) ∧ BlockProgress s 0 (blockStart hardwareNum s) := by
  have hstep := step_blockStart hsched busy hphase
  refine ⟨hstep, ?_⟩
  have hinv := everyStepKeepsTheInvariant _ _ h hstep
  rw [blockStart_of_unbypassed hbypass, recompute_eq] at hinv ⊢
  exact ⟨hinv, busy, hsched, rfl, rfl, fun _ _ _ hn => absurd hn (Nat.not_lt_zero _), fun _ _ _ => rfl, rfl⟩

/-- What FRAME leaves in a sample of an active channel is clean: the output wire is conditioned. -/
theorem cleanSample_wires (num : Config.Numerics) (n i : Nat) (frac : F64) (c : Chan) (s : State) :
    cleanSample (outCond (wires num n i frac c s).x6) = true := cleanSample_outCond (settled_cond _)

/-- FRAME processes one frame of the block. -/
theorem BlockProgress.frame {s u : State} {k : Nat} (h : BlockProgress s k u) (hk : k < s.ctx.nsamp) :
    step u = .next (frame hardwareNum u) ∧ BlockProgress s (k + 1) (frame hardwareNum u) := by
  have hphase : u.ctx.phase = .frames := by rw [h.ctx, if_pos hk]
  have hidx : u.ctx.frameIdx = k := by rw [h.ctx]
  have hnsamp : u.ctx.nsamp = s.ctx.nsamp := by rw [h.ctx]
  have hstep := step_frame h.unscheduled h.busy hphase
  have hwrites : SameOutsideBlock u (Machine.frame hardwareNum u) := frame_writes hardwareNum u
  have hread := frame_readBlk hardwareNum h.invariant.memories
  rw [hidx, h.active] at hread
  refine ⟨hstep, everyStepKeepsTheInvariant _ _ h.invariant hstep, ?busy, ?unscheduled, ?ctx, ?active, ?clean, ?others,
    h.same.trans hwrites⟩
  case busy => rw [hwrites]; exact h.busy
  case unscheduled => rw [hwrites]; exact h.unscheduled
  case ctx =>
    have hctx : (Machine.frame hardwareNum u).ctx = _ := congrArg SharedView.ctx (shared_frame hardwareNum u)
    rw [hctx, hphase, hidx, hnsamp, h.ctx]
    by_cases hlast : k + 1 = s.ctx.nsamp
    · simp only [hlast, if_true, Nat.lt_irrefl, if_false]
    · simp only [hlast, if_false, show k + 1 < s.ctx.nsamp by omega, if_true]
  case active =>
    have hnch : (Machine.frame hardwareNum u).dsp.nch = u.dsp.nch :=
      congrArg SharedView.nch (shared_frame hardwareNum u)
    rw [hnch, h.active]
  case clean =>
    intro c hc n hn
    rw [hread]
    split
    next => exact cleanSample_wires _ _ _ _ _ _
    next hother =>
      have hne : n ≠ k := fun heq => hother ⟨hc, heq⟩
      exact h.clean c hc n (by omega)
  case others =>
    intro c a ha
    have hnot : ¬ (c ∈ channels s.dsp.nch ∧ a = k) := fun ⟨hc, hak⟩ => ha.elim (· hc) (by omega)
    rw [hread, if_neg hnot]
    exact h.others c a (ha.imp id Nat.le_of_succ_le)

/-- BLOCK_END follows the last frame. -/
theorem BlockProgress.step_last {s u : State} (h : BlockProgress s s.ctx.nsamp u) : step u = .next (blockEnd u) := by
  have hphase : u.ctx.phase = .finish := by rw [h.ctx, if_neg (Nat.lt_irrefl _)]
  exact step_blockEnd h.unscheduled h.busy hphase

/-- After BLOCK_START and `k` frames. -/
theorem BlockProgress.of_run {s : State} (h : MachineInvariant s) (busy : s.lc = .busy) (hphase : s.ctx.phase = .start)
    (hsched : s.schedule = []) (hbypass : s.holder[7] ≠ bypassOn) {k : Nat} (hk : k ≤ s.ctx.nsamp) :
    ∃ u : State, Host.Core.run Sys2Proof.core (k + 1) s = .next u ∧ BlockProgress s k u := by
  induction k with
  | zero =>
    obtain ⟨hstep, hprogress⟩ := BlockProgress.of_blockStart h busy hphase hsched hbypass
    exact ⟨_, run_succ_of_run rfl hstep, hprogress⟩
  | succ k ih =>
    obtain ⟨u, hrun, hprogress⟩ := ih (Nat.le_of_succ_le hk)
    obtain ⟨hstep, hnext⟩ := hprogress.frame hk
    exact ⟨_, run_succ_of_run hrun hstep, hnext⟩

/-- Settles O33: BLOCK_START, `nsamp` frames, BLOCK_END; what `BlockProgress` says of the samples after the last frame
is what is stated of the block. -/
theorem undisturbedUnbypassedBlockCompletes : Obligations.UndisturbedUnbypassedBlockCompletes := by
  intro s h busy hphase hsched hbypass
  constructor
  · intro k hk
    match k with
    | 0 => exact ⟨s, rfl, busy⟩
    | k + 1 =>
      obtain ⟨u, hrun, hprogress⟩ := BlockProgress.of_run h busy hphase hsched hbypass (k := k) (by omega)
      exact ⟨u, hrun, hprogress.busy⟩
  · obtain ⟨u, hrun, hprogress⟩ := BlockProgress.of_run h busy hphase hsched hbypass (Nat.le_refl s.ctx.nsamp)
    refine ⟨blockEnd u, run_succ_of_run hrun hprogress.step_last, rfl, hprogress.clean, hprogress.others, ?_⟩
    have hsame : u = _ := hprogress.same
    generalize u.ctx = ctx, u.dsp = dsp, u.blk = blk, u.dl = dl at hsame
    rw [hsame]
    rfl

end Sys2Proof.Machine

/-! PROOFS. The host's operations (46_host_commands.md): what each write, read and command of port A leaves while no
block runs, and what the operations of port C leave at any time. -/
namespace Sys2Proof.Machine

/-! ### The registers of port A (R191 to R195, R215 to R219) -/

/-- Settles O14: each transaction word is the encoding of its write, which outside BUSY is accepted. -/
theorem configurationWritesStoreTheirData : Obligations.ConfigurationWritesStoreTheirData := by
  intro s data free
  exact ⟨roundTrips (.wrFsLo data) rfl _ rfl, roundTrips (.wrFsHi data) rfl _ rfl,
    roundTrips (.wrMaxBlk data) rfl _ rfl, roundTrips (.wrNch data) rfl _ rfl,
    roundTrips (.wrNumSamp data) rfl _ rfl, whenAccepted_free free, whenAccepted_free free, whenAccepted_free free,
    whenAccepted_free free, whenAccepted_free free⟩

/-- Settles O17: outside BUSY each read is accepted, and its effect is the answer. -/
theorem readsAnswerTheStoredWord : Obligations.ReadsAnswerTheStoredWord := by
  intro s idx free
  exact ⟨whenAccepted_free free, whenAccepted_free free, whenAccepted_free free, whenAccepted_free free,
    whenAccepted_free free, whenAccepted_free free, whenAccepted_free free⟩

/-! ### The block buffers (R220, R221) -/

/-- A block write, read back on either channel. -/
theorem readBlk_writeBlk {s : State} {c : Chan} (h : Memory.wf (s.blk.get c) = true) (i : Nat) (w : Word) (e : Chan)
    (a : Nat) : (s.writeBlk c i w).readBlk e a = if e = c ∧ a = i then w else s.readBlk e a := by
  unfold State.readBlk
  rw [State.writeBlk_blk]
  by_cases hc : e = c
  · subst hc
    simpa only [Pair.get_set, true_and] using Memory.read_write h i a w
  · rw [if_neg fun both => hc both.1, Pair.get_set_ne _ _ hc]

/-- Settles O16: an accepted block write is `writeBlk` of its channel, whose reads `readBlk_writeBlk` gives. -/
theorem blockWritesStoreOneElement : Obligations.BlockWritesStoreOneElement := by
  intro s idx data hmem free
  obtain ⟨hblk, -⟩ := memoriesOk_iff.mp hmem
  obtain ⟨hwf0, -⟩ := hblk .c0
  obtain ⟨hwf1, -⟩ := hblk .c1
  exact ⟨⟨_, whenAccepted_free free, rfl, readBlk_writeBlk hwf0 idx.toNat data⟩,
    ⟨_, whenAccepted_free free, rfl, readBlk_writeBlk hwf1 idx.toNat data⟩⟩

/-! ### The parameters (R205 to R214) -/

/-- R75: the address of a parameter is `0x0010` plus its id. -/
theorem paramAddr_ofFin (id : Fin 8) : paramAddr (.ofFin id) = 0x0010#16 + BitVec.ofNat 16 id.val := by
  revert id
  decide

/-- The holder a clamped write names. -/
theorem setClamp_holder_same (id : Fin 8) (w : Word) (s : State) :
    (setClamp id w s).holder[id] = if isNaN32 w then s.holder[id] else clampedValue id w := by
  cases hw : isNaN32 w
  · simp [setClamp_value hw]
  · simp [setClamp_nan hw]

/-- R205 lines 3 to 6: a parameter with a range stores the bound passed, else the value. -/
theorem clampedValue_range {id : Fin 8} (h : id ≠ 7) (v : Word) :
    clampedValue id v =
      if flt32 v Config.lo[id] then Config.lo[id] else if flt32 Config.hi[id] v then Config.hi[id] else v := if_neg h

/-- R213: Bypass stores one of two values, by its threshold. -/
theorem clampedValue_bypass (v : Word) :
    clampedValue 7 v = if fge32 v Config.bypassThreshold then 0x3F800000#32 else 0x00000000#32 := if_pos rfl

/-- The SETPARAM of a holder: its address on port C, and what it leaves of the state and of each holder. -/
theorem setParam_ofFin_spec (id : Fin 8) (data : Word) (s : State) :
    decode (TWord.make true true (0x0010#16 + BitVec.ofNat 16 id.val) data) = .op (setParam (.ofFin id) data) ∧
    ∃ t : State, exec (setParam (.ofFin id) data) s = .next t ∧ t = { s with holder := t.holder } ∧
      (∀ j : Fin 8, j ≠ id → t.holder[j] = s.holder[j]) ∧
      t.holder[id] = if isNaN32 data then s.holder[id] else clampedValue id data := by
  refine ⟨?_, _, exec_setParam (.ofFin id) data s, setClamp_eq id data s, fun j hj => setClamp_holder_ne hj data s,
    setClamp_holder_same id data s⟩
  rw [← paramAddr_ofFin]
  exact decode_param true (.ofFin id) data

/-- Settles O18: each row of the list is the SETPARAM of its id with the bounds of `Config`; Bypass is that of 7. -/
theorem setParamClampsAndStores : Obligations.SetParamClampsAndStores := by
  intro s data id op low high
  refine ⟨fun hrow => ?_, setParam_ofFin_spec 7 data s⟩
  have hparam : id ≠ 7 ∧ op = setParam (.ofFin id) ∧ low = Config.lo[id] ∧ high = Config.hi[id] := by
    simp only [List.mem_cons, Prod.mk.injEq, List.not_mem_nil, or_false] at hrow
    obtain ⟨rfl, rfl, rfl, rfl⟩ | ⟨rfl, rfl, rfl, rfl⟩ | ⟨rfl, rfl, rfl, rfl⟩ | ⟨rfl, rfl, rfl, rfl⟩ |
      ⟨rfl, rfl, rfl, rfl⟩ | ⟨rfl, rfl, rfl, rfl⟩ | ⟨rfl, rfl, rfl, rfl⟩ := hrow
    all_goals exact ⟨by decide, rfl, rfl, rfl⟩
  obtain ⟨hid, rfl, rfl, rfl⟩ := hparam
  rw [← clampedValue_range hid]
  exact setParam_ofFin_spec id data s

/-- Settles O19: GETPARAM is not held in any lifecycle state; its effect is the answer on port C. -/
theorem getParamAnswersTheHolder : Obligations.GetParamAnswersTheHolder := fun _ _ => rfl

/-! ### PREPARE rejected (R196, R233) -/

theorem exec_cmdPrepare {s : State} (free : s.lc ≠ .busy) :
    exec .cmdPrepare s = .next (commandPrepare hardwareNum s) := whenAccepted_free free

theorem legalFs_iff {fs : F64} : legalFs fs = true ↔ fge fs Config.fsMin = true ∧ fle fs Config.fsMax = true :=
  Bool.and_eq_true_iff

/-- Line 3 of PREPARE fails. -/
theorem commandPrepare_badFs {s : State} (hfs : ¬ legalFs (argFs s) = true) (num : Config.Numerics) :
    commandPrepare num s = raiseError .cfgBadFs s := by
  simp [commandPrepare, hfs]

/-- Line 3 holds and line 4 fails. -/
theorem commandPrepare_badBlock {s : State} (hfs : legalFs (argFs s) = true)
    (hblk : ¬ legalMaxBlk (argMaxBlk s) = true) (num : Config.Numerics) :
    commandPrepare num s = raiseError .cfgBadBlock s := by
  simp [commandPrepare, hfs, hblk]

/-- Lines 3 and 4 hold and line 5 fails. -/
theorem commandPrepare_badNch {s : State} (hfs : legalFs (argFs s) = true) (hblk : legalMaxBlk (argMaxBlk s) = true)
    (hnch : ¬ legalNch (argNch s) = true) (num : Config.Numerics) :
    commandPrepare num s = raiseError .cfgBadNch s := by
  simp [commandPrepare, hfs, hblk, hnch]

/-- What a PREPARE that ends in a configuration error leaves. -/
theorem exec_cmdPrepare_rejected {s : State} (free : s.lc ≠ .busy) {e : ErrorKind} (he : isConfigError e = true)
    (heq : commandPrepare hardwareNum s = raiseError e s) :
    ∃ t : State, exec .cmdPrepare s = .next t ∧
      t = { s with lc := .unprepared, cfgErr := true, errCode := errorCode e, dsp := t.dsp, dl := t.dl
                   free := t.free } := by
  refine ⟨_, exec_cmdPrepare free, ?_⟩
  rw [heq, raiseError_config he]
  rfl

/-- Settles O22: the three tests in their order, each with the error it raises. -/
theorem prepareRejectsInOrder : Obligations.PrepareRejectsInOrder := by
  intro s free legalRate legalBlock legalChannels rejected
  have rate : legalFs (argFs s) = true ↔ legalRate := legalFs_iff
  have block : legalMaxBlk (argMaxBlk s) = true ↔ legalBlock := legalMaxBlk_iff
  have count : legalNch (argNch s) = true ↔ legalChannels := legalNch_iff
  rw [← rate, ← block, ← count]
  exact ⟨fun hfs => exec_cmdPrepare_rejected free rfl (commandPrepare_badFs hfs hardwareNum),
    fun hfs hblk => exec_cmdPrepare_rejected free rfl (commandPrepare_badBlock hfs hblk hardwareNum),
    fun hfs hblk hnch => exec_cmdPrepare_rejected free rfl (commandPrepare_badNch hfs hblk hnch hardwareNum)⟩

/-! ### PROCESS (R199) -/

theorem exec_cmdProcess {s : State} (free : s.lc ≠ .busy) : exec .cmdProcess s = .next (commandProcess s) :=
  whenAccepted_free free

/-- Line 3 of PROCESS. -/
theorem legalNumSamp_iff {n : Int} {maxBlk : Nat} : legalNumSamp n maxBlk = true ↔ 0 ≤ n ∧ n ≤ maxBlk := by
  simp [legalNumSamp]

/-- Line 1 of PROCESS: nothing is prepared. -/
theorem commandProcess_unprepared {s : State} (hlc : s.lc = .unprepared) :
    commandProcess s = { s with errCode := 4#4, seqErr := true } :=
  (if_pos hlc).trans (raiseError_sequence rfl s)

/-- Line 3 of PROCESS fails. -/
theorem commandProcess_badNumSamp {s : State} (prepared : s.lc ≠ .unprepared)
    (hn : ¬ legalNumSamp (argNumSamp s) s.dsp.maxBlk = true) :
    commandProcess s = { s with errCode := 5#4, seqErr := true } := by
  have heq : commandProcess s = raiseError .seqBadNumSamp s := by simp [commandProcess, prepared, hn]
  exact heq.trans (raiseError_sequence rfl s)

/-- Lines 4 and 5 of PROCESS. -/
theorem commandProcess_begins {s : State} (prepared : s.lc ≠ .unprepared)
    (hn : legalNumSamp (argNumSamp s) s.dsp.maxBlk = true) :
    commandProcess s = beginBlock (argNumSamp s).toNat s := by
  simp [commandProcess, prepared, hn]

/-- Settles O23: the branches of PROCESS, with the count's test read as its two bounds. -/
theorem processBeginsABlockOrIsRejected : Obligations.ProcessBeginsABlockOrIsRejected := by
  refine ⟨decode_cmd true 2#32, fun s => ⟨fun hlc => ?_, fun hlc hn => ?_, fun hlc hmin hmax => ?_⟩⟩
  · rw [exec_cmdProcess (by simp [hlc]), commandProcess_unprepared hlc]
  · have hbad : ¬ legalNumSamp (argNumSamp s) s.dsp.maxBlk = true := by
      rw [legalNumSamp_iff, argNumSamp]
      omega
    rw [exec_cmdProcess (by simp [hlc]), commandProcess_badNumSamp (by simp [hlc]) hbad]
  · have heq := commandProcess_begins (by simp [hlc]) (legalNumSamp_iff.mpr ⟨hmin, hmax⟩)
    refine ⟨beginBlock (argNumSamp s).toNat s, ?_, rfl, Int.toNat_of_nonneg hmin, rfl, rfl⟩
    rw [exec_cmdProcess (by simp [hlc]), heq]

/-! ### RELEASE (R202) -/

theorem exec_cmdRelease {s : State} (free : s.lc ≠ .busy) : exec .cmdRelease s = .next (commandRelease s) :=
  whenAccepted_free free

/-- In `UNPREPARED` RELEASE does nothing. -/
theorem commandRelease_unprepared {s : State} (hlc : s.lc = .unprepared) : commandRelease s = s := if_pos hlc

/-- A prepared core becomes `UNPREPARED` and loses its DSP state. -/
theorem commandRelease_prepared {s : State} (prepared : s.lc ≠ .unprepared) :
    commandRelease s = { s.loseDsp with lc := .unprepared } := if_neg prepared

/-- Settles O24: the two branches of RELEASE; the loss of the DSP state writes what the statement leaves open. -/
theorem releaseClearsTheStream : Obligations.ReleaseClearsTheStream := by
  refine fun s => ⟨fun hlc => ?_, fun hlc => ⟨{ s.loseDsp with lc := .unprepared }, ?_, rfl⟩⟩
  · rw [exec_cmdRelease (by simp [hlc]), commandRelease_unprepared hlc]
  · rw [exec_cmdRelease (by simp [hlc]), commandRelease_prepared (by simp [hlc])]

end Sys2Proof.Machine

/-! PROOFS. Family 60_exceptions.md: the illegal command's record (R235), that only a successful PREPARE clears the
record (R238), and that every operation and every step answers a next state (R240). -/
namespace Sys2Proof.Machine

/-! ### The illegal command (R235, R237) -/

theorem exec_illegalCmd {s : State} (free : s.lc ≠ .busy) (data : Word) :
    exec (.illegalCmd data) s = .next (raiseError .illegalCmd s) := whenAccepted_free free

/-- Settles O25: the data is none of the three codes, and the record of a sequence error is all that is written. -/
theorem illegalCommandRecordsCodeSix : Obligations.IllegalCommandRecordsCodeSix := by
  intro s data h1 h2 h3 free
  constructor
  · exact (decode_cmd true data).trans (decodeCmd_illegal (illegalData_iff.mpr ⟨h1, h2, h3⟩))
  · rw [exec_illegalCmd free, raiseError_sequence rfl]
    rfl

/-! ### Nothing fails loudly (R240) -/

theorem completes_next (s : State) : Completes (.next s) := ⟨s, rfl⟩

/-- A port A transaction answers a next state, held or accepted. -/
theorem completes_whenAccepted (s effect : State) : Completes (whenAccepted s effect) := by
  by_cases busy : s.lc = .busy
  · rw [whenAccepted_held busy]; exact completes_next s
  · rw [whenAccepted_free busy]; exact completes_next effect

/-- A sequencer step answers a next state, enabled or not. -/
theorem completes_guarded (enabled : Prop) [Decidable enabled] (s effect : State) :
    Completes (if enabled then .next effect else .next s) := by
  split
  · exact completes_next effect
  · exact completes_next s

/-- An operation is held or accepted on port A, guarded by the block's phase, or answers its effect at once. -/
theorem exec_completes (i : Instr) (s : State) : Completes (exec i s) := by
  cases i with
  | cmdPrepare | cmdProcess | cmdRelease | illegalCmd | wrFsLo | wrFsHi | wrMaxBlk | wrNch | wrNumSamp | rdFsLo | rdFsHi
  | rdMaxBlk | rdNch | rdNumSamp | wrBlk0 | wrBlk1 | rdBlk0 | rdBlk1 => exact completes_whenAccepted s _
  | blockStart | frame | blockEnd => exact completes_guarded _ s _
  | _ => exact completes_next _

/-- An accepted transaction answers a next state, reserved ones included (30_encoding.md R83). -/
theorem runDecoded_completes (d : Decoded) (s : State) : Completes (runDecoded d s) := by
  cases d with
  | op i => exact exec_completes i s
  | reservedWrite _ => exact completes_next s
  | reservedRead port => exact completes_next (answerReserved port s)

/-- Each agent's step answers a next state. -/
theorem agentStep_completes (agent : Agent) (s : State) : Completes (agentStep agent s) := by
  cases agent with
  | audioHost =>
    change Completes (stepAudio s)
    obtain ⟨-, heq⟩ | ⟨_, _, -, -, heq⟩ | ⟨_, _, -, -, heq⟩ := stepAudio_cases s <;> rw [heq]
    · exact completes_next s
    · exact completes_next s
    · exact runDecoded_completes _ _
  | controlHost =>
    change Completes (stepControl s)
    obtain ⟨-, heq⟩ | ⟨_, _, -, heq⟩ := stepControl_cases s <;> rw [heq]
    · exact completes_next s
    · exact runDecoded_completes _ _
  | sequencer =>
    change Completes (stepSequencer s)
    by_cases busy : s.lc = .busy
    · rw [stepSequencer_of_busy busy]; exact exec_completes _ s
    · exact ⟨s, if_neg busy⟩
  | resetInput => exact completes_next (hardwareReset s)

/-- Settles O11: every operation's outcome is a next state, and a step is some agent's. -/
theorem nothingFailsLoudly : Obligations.NothingFailsLoudly :=
  ⟨exec_completes, fun s => agentStep_completes (chosenAgent s) _⟩

/-! ### What clears the record (R238) -/

/-- What the record holds in `s` is not lost in `t`: a sticky bit stays set, and a code is not taken back to 0. -/
structure KeepsRecord (s t : State) : Prop where
  cfgErr : s.cfgErr = true → t.cfgErr = true
  seqErr : s.seqErr = true → t.seqErr = true
  errCode : s.errCode ≠ 0#4 → t.errCode ≠ 0#4

theorem KeepsRecord.of_eq {s t : State} (cfgErr : t.cfgErr = s.cfgErr) (seqErr : t.seqErr = s.seqErr)
    (errCode : t.errCode = s.errCode) : KeepsRecord s t :=
  ⟨cfgErr.trans, seqErr.trans, fun hcode => errCode ▸ hcode⟩

/-- Code 0 is no error's (R231). -/
theorem errorCode_ne_zero (e : ErrorKind) : errorCode e ≠ 0#4 := by cases e <;> decide

/-- Error entry overwrites the code with another and sets one of the sticky bits (R237). -/
theorem KeepsRecord.raiseError (e : ErrorKind) (s : State) : KeepsRecord s (raiseError e s) := by
  cases he : isConfigError e
  · rw [raiseError_sequence he]
    exact ⟨id, fun _ => rfl, fun _ => errorCode_ne_zero e⟩
  · rw [raiseError_config he]
    exact ⟨fun _ => rfl, id, fun _ => errorCode_ne_zero e⟩

/-- On port A the record is kept but by a PREPARE that ends IDLE: each command rejected raises an error, and the others
write no part of the record. -/
theorem PortAEffect.keepsRecord {i : Instr} {s t : State} (h : PortAEffect i s t)
    (hprepare : i = .cmdPrepare → t.lc ≠ .idle) : KeepsRecord s t := by
  cases h with
  | prepares op =>
    obtain ⟨-, -, -, heq⟩ | ⟨e, -, heq⟩ := commandPrepare_cases hardwareNum s
    · have idle : (commandPrepare hardwareNum s).lc = .idle := by rw [heq, prepare_lc]
      exact absurd idle (hprepare op)
    · rw [heq]; exact .raiseError e s
  | processes =>
    obtain ⟨-, -, heq⟩ | ⟨e, -, heq⟩ := commandProcess_cases s
    · rw [heq]; exact .of_eq rfl rfl rfl
    · rw [heq]; exact .raiseError e s
  | releases =>
    obtain ⟨-, heq⟩ | ⟨-, heq⟩ := commandRelease_cases s
    · rw [heq]; exact .of_eq rfl rfl rfl
    · rw [heq]; exact .of_eq rfl rfl rfl
  | rejects => exact .raiseError .illegalCmd s
  | _ => exact .of_eq rfl rfl rfl

/-- No port C operation writes the record. -/
theorem exec_portC_keepsRecord {i : Instr} {s t : State} (hport : i.port = some .c) (h : exec i s = .next t) :
    KeepsRecord s t := by
  obtain ⟨id, w, rfl⟩ | ⟨w, rfl⟩ := exec_portC_cases hport h
  · rw [setClamp_eq]; exact .of_eq rfl rfl rfl
  · exact .of_eq rfl rfl rfl

/-- No operation without a port writes the record. -/
theorem exec_internal_keepsRecord {i : Instr} {s t : State} (hport : i.port = none) (h : exec i s = .next t) :
    KeepsRecord s t := by
  obtain ⟨-, heq⟩ | ⟨-, -, rfl⟩ | heq := exec_internal_cases hport h
  · rw [heq]; exact .of_eq rfl rfl rfl
  · exact .of_eq rfl rfl rfl
  · rw [heq]; exact .of_eq rfl rfl rfl

/-- Settles O26: by the port of the operation, from what it can do to the record. -/
theorem nothingElseClearsTheRecord : Obligations.NothingElseClearsTheRecord := by
  intro i s t h hprepare
  have kept : KeepsRecord s t :=
    match hport : i.port with
    | some .a => (exec_portA_cases hport h).keepsRecord hprepare
    | some .c => exec_portC_keepsRecord hport h
    | none => exec_internal_keepsRecord hport h
  exact ⟨kept.cfgErr, kept.seqErr, kept.errCode⟩

end Sys2Proof.Machine
